-- ==== Sys2Proof/Config.lean ====
section
/-! DEFINITION. The block's parameters: those the source fixes (00_scope.md R5), those the spec chose (R6), and
the one the platform chooses. -/

namespace Sys2Proof.Config

/-- NR: "14 rounds" (00_scope.md R5, 40_aes_core.md R128). -/
def rounds : Nat := 14

/-- PAR_LANES times BLOCK_BYTES: the bytes of one group of the 4-lane path (00_scope.md R5, 41_ctr_engine.md R166). -/
def groupBytes : Nat := 64

/-- MAX_ADATA: the longest personalization or additional data, inclusive (00_scope.md R5). -/
def maxAdata : Nat := 48

/-- MAX_GENERATE: the longest generate request, inclusive (00_scope.md R5). -/
def maxGenerate : Nat := 65535

/-- RESEED_CEILING: a generate fails when RC is above it (00_scope.md R5). -/
def reseedCeiling : Nat := 2 ^ 48

/-- The no-seeder value of RI: "default and "no seeder" value 2^48" (00_scope.md R5, RESEED_INTERVAL_BITS). -/
def noSeederInterval : BitVec 64 := BitVec.ofNat 64 (2 ^ 48)

/-- The bytes of one register window: 4 KiB (00_scope.md R6). -/
def windowBytes : Nat := 4096

/-- BASE of each instance: where the platform places the window of block `k` in its address map. The spec leaves
it to the platform (20_memory.md R60, 60_exceptions.md R274), so it has no body here; log 12. -/
opaque windowBase : Nat → Nat

end Sys2Proof.Config
end

