-- ==== Sys2Proof/Word.lean ====
section
/-! DEFINITION. Bytes, words and byte strings: the value types of the block and their plainest arithmetic. -/

namespace Sys2Proof

/-- One byte. -/
abbrev Byte := BitVec 8

/-- One 32-bit word of the bus (00_scope.md R6, BUS_WIDTH). -/
abbrev Word := BitVec 32

/-- A byte string of `n` bytes, byte 0 first (00_scope.md R7). -/
abbrev Bytes (n : Nat) := Vector Byte n

/-- The byte string whose byte `i` is `f i`. -/
def tabulate {n : Nat} (f : Fin n → Byte) : Bytes n :=
  ⟨(List.ofFn f).toArray, by simp⟩

/-- Byte `i` of a byte string; zero past its end, where no rule reads. -/
def byteAt {n : Nat} (b : Bytes n) (i : Nat) : Byte :=
  b.toArray.toList.getD i 0

/-- `0^n` (R7). -/
def zeroBytes (n : Nat) : Bytes n := tabulate fun _ => 0

/-- `XOR` of two byte strings of equal length, bytewise (R7). -/
def xorBytes {n : Nat} (a b : Bytes n) : Bytes n :=
  tabulate fun i => byteAt a i ^^^ byteAt b i

/-- `b[from..from+m)` (R7). -/
def sliceBytes {n : Nat} (b : Bytes n) (start m : Nat) : Bytes m :=
  tabulate fun i => byteAt b (start + i)

/-- `a || b` (R7). -/
def appendBytes {n m : Nat} (a : Bytes n) (b : Bytes m) : Bytes (n + m) :=
  tabulate fun i => if i.val < n then byteAt a i else byteAt b (i - n)

end Sys2Proof
end

