-- ==== Sys2Proof/Machine/AesCore.lean ====
section
/-! DEFINITION. AES-256: field arithmetic, S-box, round stages, cipher, key expansion (40_aes_core.md R120 to R133). -/

namespace Sys2Proof.Machine

/-- Multiplication by x in GF(2^8) (40_aes_core.md R121). -/
def xtime (a : Byte) : Byte := (a <<< 1) ^^^ (if a.getLsbD 7 then 0x1B else 0x00)

/-- The loop of `gmul`: `n` rounds still to go, accumulator `r` (R120). -/
def gmulLoop : Nat → Byte → Byte → Byte → Byte
  | 0, _, _, r => r
  | n + 1, a, b, r => gmulLoop n (xtime a) (b >>> 1) (if b.getLsbD 0 then r ^^^ a else r)

/-- Multiplication in GF(2^8) modulo 0x11B (R120). -/
def gmul (a b : Byte) : Byte := gmulLoop 8 a b 0

/-- The rows of the S-box table: row = high nibble, and in a row the column 0 byte first (R122). -/
def sboxRows : List Nat := [
  0x637c777bf26b6fc53001672bfed7ab76,
  0xca82c97dfa5947f0add4a2af9ca472c0,
  0xb7fd9326363ff7cc34a5e5f171d83115,
  0x04c723c31896059a071280e2eb27b275,
  0x09832c1a1b6e5aa0523bd6b329e32f84,
  0x53d100ed20fcb15b6acbbe394a4c58cf,
  0xd0efaafb434d338545f9027f503c9fa8,
  0x51a3408f929d38f5bcb6da2110fff3d2,
  0xcd0c13ec5f974417c4a77e3d645d1973,
  0x60814fdc222a908846eeb814de5e0bdb,
  0xe0323a0a4906245cc2d3ac629195e479,
  0xe7c8376d8dd54ea96c56f4ea657aae08,
  0xba78252e1ca6b4c6e8dd741f4bbd8b8a,
  0x703eb5664803f60e613557b986c11d9e,
  0xe1f8981169d98e949b1e87e9ce5528df,
  0x8ca1890dbfe6426841992d0fb054bb16]

/-- The S-box, read from the table (R122). -/
def sbox (a : Byte) : Byte :=
  BitVec.ofNat 8 (sboxRows.getD (a.toNat / 16) 0 >>> (8 * (15 - a.toNat % 16)))

/-- SubBytes (R124). -/
def subBytes (s : Bytes 16) : Bytes 16 := tabulate fun n => sbox (byteAt s n)

/-- ShiftRows: `s'[r + 4c] = s[r + 4((c + r) mod 4)]` (R125). -/
def shiftRows (s : Bytes 16) : Bytes 16 :=
  tabulate fun n =>
    let r := n.val % 4
    let c := n.val / 4
    byteAt s (r + 4 * ((c + r) % 4))

/-- MixColumns (R126): row r of a column is `gmul(a_r,2) XOR gmul(a_{r+1},3) XOR a_{r+2} XOR a_{r+3}`, rows mod 4. -/
def mixColumns (s : Bytes 16) : Bytes 16 :=
  tabulate fun n =>
    let r := n.val % 4
    let c := n.val / 4
    let a := fun i => byteAt s (i % 4 + 4 * c)
    gmul (a r) 2 ^^^ gmul (a (r + 1)) 3 ^^^ a (r + 2) ^^^ a (r + 3)

/-- AddRoundKey (R127). -/
def addRoundKey (s rk : Bytes 16) : Bytes 16 := xorBytes s rk

/-- A full round (R129). -/
def aesRound (s rk : Bytes 16) : Bytes 16 := addRoundKey (mixColumns (shiftRows (subBytes s))) rk

/-- The final round, without MixColumns (R129). -/
def aesFinalRound (s rk : Bytes 16) : Bytes 16 := addRoundKey (shiftRows (subBytes s)) rk

/-- A serialized key schedule: RK[0] to RK[14], 240 bytes (R133). -/
abbrev Schedule := Bytes 240

/-- Round key r: bytes 16r to 16r + 15 of the serialized schedule (R133). -/
def roundKey (rk : Schedule) (r : Nat) : Bytes 16 := sliceBytes rk (16 * r) 16

/-- `n` full rounds, the first with round key `r` (R128). -/
def fullRounds (rk : Schedule) : Nat → Nat → Bytes 16 → Bytes 16
  | 0, _, s => s
  | n + 1, r, s => fullRounds rk n (r + 1) (aesRound s (roundKey rk r))

/-- `AES256_Encrypt(RK, in)`: whitening, 13 full rounds, the final round (R128). -/
def aesEncrypt (rk : Schedule) (input : Bytes 16) : Bytes 16 :=
  aesFinalRound (fullRounds rk (Config.rounds - 1) 1 (addRoundKey input (roundKey rk 0)))
    (roundKey rk Config.rounds)

/-- A word of the key expansion, byte 0 first (R132). -/
abbrev KeyWord := Bytes 4

/-- RotWord (R132). -/
def rotWord (a : KeyWord) : KeyWord := tabulate fun n => byteAt a ((n.val + 1) % 4)

/-- SubWord (R132). -/
def subWord (a : KeyWord) : KeyWord := tabulate fun n => sbox (byteAt a n)

/-- `xtime^n(0x01)`. -/
def xtimePow : Nat → Byte
  | 0 => 0x01
  | n + 1 => xtime (xtimePow n)

/-- `Rcon[j] = xtime^(j-1)(0x01)` (R131). -/
def rcon (j : Nat) : Byte := xtimePow (j - 1)

/-- `Rcon[j] || 00 || 00 || 00` (R130). -/
def rconWord (j : Nat) : KeyWord := tabulate fun n => if n.val = 0 then rcon j else 0

/-- Word i of a list of key words; zero past its end, where R130 does not read. -/
def keyWordAt (ws : List KeyWord) (i : Nat) : KeyWord := ws.getD i (zeroBytes 4)

/-- W[i] from the words before it, i of them, for i of 8 to 59 (R130). -/
def nextKeyWord (ws : List KeyWord) : KeyWord :=
  let i := ws.length
  let prev := keyWordAt ws (i - 1)
  let temp :=
    if i % 8 = 0 then xorBytes (subWord (rotWord prev)) (rconWord (i / 8))
    else if i % 8 = 4 then subWord prev
    else prev
  xorBytes (keyWordAt ws (i - 8)) temp

/-- `n` more words of the expansion (R130). -/
def expandWords : Nat → List KeyWord → List KeyWord
  | 0, ws => ws
  | n + 1, ws => expandWords n (ws ++ [nextKeyWord ws])

/-- `KeyExpansion(key)`: the 60 words W[0..59] (R130). -/
def keyExpansion (key : Bytes 32) : List KeyWord :=
  expandWords 52 ((List.range 8).map fun i => sliceBytes key (4 * i) 4)

/-- The serialized schedule of a key: `W[0] || … || W[59]` (R133, R134). -/
def keySchedule (key : Bytes 32) : Schedule :=
  let ws := keyExpansion key
  tabulate fun n => byteAt (keyWordAt ws (n.val / 4)) (n.val % 4)

end Sys2Proof.Machine
end

