-- ==== Sys2Proof/Machine/ByteOrder.lean ====
section
/-! DEFINITION. Byte order: how bytes pack into bus words (20_memory.md R62) and the integer views of byte strings
(00_scope.md R8). -/

namespace Sys2Proof.Machine

/-- Four bytes as a word, the first the most significant (20_memory.md R62). -/
def packWord (b0 b1 b2 b3 : Byte) : Word := (b0 ++ b1 ++ b2 ++ b3 : BitVec 32)

/-- Byte `j` of a word, byte 0 in bits [31:24] (R62). -/
def wordByte (w : Word) (j : Nat) : Byte := w.extractLsb' (24 - 8 * j) 8

/-- Word `k` of a byte-string register as a host read returns it (R62). -/
def wordOf {n : Nat} (b : Bytes n) (k : Nat) : Word :=
  packWord (byteAt b (4 * k)) (byteAt b (4 * k + 1)) (byteAt b (4 * k + 2)) (byteAt b (4 * k + 3))

/-- A byte-string register after a host write of word `k` (R62). -/
def storeWord {n : Nat} (b : Bytes n) (k : Nat) (w : Word) : Bytes n :=
  tabulate fun i => if i.val / 4 = k then wordByte w (i.val % 4) else byteAt b i

/-- The big-endian integer value of a byte string: `be128` for 16 bytes, `be32` for 4 (00_scope.md R8). -/
def beNat {n : Nat} (b : Bytes n) : Nat :=
  b.toArray.toList.foldl (fun acc x => acc * 256 + x.toNat) 0

/-- `bytes16(n)` for n = 16: the inverse of `beNat`, on numbers below 256^n (00_scope.md R8). -/
def beBytes (n : Nat) (v : Nat) : Bytes n :=
  tabulate fun i => BitVec.ofNat 8 (v / 256 ^ (n - 1 - i.val))

/-- The words of a list of bytes, four to a word, as LOADB expands a hex string (30_encoding.md R101). Bytes past
the last whole word are dropped; WellFormed refuses such a list. -/
def wordsOfBytes : List Byte → List Word
  | b0 :: b1 :: b2 :: b3 :: rest => packWord b0 b1 b2 b3 :: wordsOfBytes rest
  | [] | [_] | [_, _] | [_, _, _] => []

end Sys2Proof.Machine
end

