-- ==== Sys2Proof/Syntax.lean ====
section
/-! DEFINITION. What the host can ask of the block: the twelve commands, the names of the registers, one bus
operation, and one line of a host script. -/

namespace Sys2Proof

/-- The three flag bits of a command word (30_encoding.md R91). A command may carry a flag it does not read; the
flag is then ignored (R92). -/
structure CmdFlags where
  /-- Bit 8: personalization or additional data is present. -/
  adv : Bool
  /-- Bit 9: the output destination is present. -/
  outv : Bool
  /-- Bit 10: install a seeder. -/
  seeder : Bool
  deriving DecidableEq, Repr

/-- The commands, one per row of the opcode map (30_encoding.md R94), each with the flags `decode` gives it (R99). -/
inductive Instr where
  | aesExpand (f : CmdFlags)
  | aesCtr (f : CmdFlags)
  | aesCtrZeroiv (f : CmdFlags)
  | aesCtrRks (f : CmdFlags)
  | ctrInc (f : CmdFlags)
  | rksClear (f : CmdFlags)
  | drbgSeed (f : CmdFlags)
  | drbgReseed (f : CmdFlags)
  | drbgGenerate (f : CmdFlags)
  | drbgConfigSeeder (f : CmdFlags)
  | drbgSeedResponse (f : CmdFlags)
  | drbgDestroy (f : CmdFlags)
  deriving DecidableEq, Repr

/-- The registers of the window, by name (10_state.md R22). -/
inductive RegName where
  | cap | status | cmd | len | adLen | riLo | riHi | outAvail | outData
  | drbgRcLo | drbgRcHi | drbgRiLo | drbgRiHi
  | keyIn | ctrIn | ctrOut | entIn | adIn | rks | drbgK | drbgV
  deriving DecidableEq, Repr

/-- The sizes of a bus transfer the block does not offer (20_memory.md R61, R65). -/
inductive NarrowSize where
  | byte | halfword
  deriving DecidableEq, Repr

/-- One thing the host does. A script is a list of them (30_encoding.md R100, R101; 70_reset_and_hazards.md R301). -/
inductive HostOp where
  /-- `RegRead(off)`. -/
  | read (off : BitVec 32)
  /-- `RegWrite(off, v)`. -/
  | write (off : BitVec 32) (v : Word)
  /-- A transfer narrower than a word, which is outside the spec (R65). -/
  | narrow (size : NarrowSize) (off : BitVec 32)
  /-- `WAITIDLE`: read STATUS until BUSY = 0. -/
  | waitIdle
  /-- `WAITSEED`: read STATUS until SEED_REQ = 1 or BUSY = 0. -/
  | waitSeed
  /-- Assert the reset input (70_reset_and_hazards.md R290). -/
  | reset
  deriving DecidableEq, Repr

/-- One line of a host script (30_encoding.md R100, R101). -/
inductive ScriptLine where
  | wr (reg : RegName) (k : Nat) (imm : Nat)
  | rd (reg : RegName) (k : Nat)
  | cmd (i : Instr)
  | loadb (buf : RegName) (bytes : List Byte)
  | ldi64 (imm : Nat)
  | waitIdle
  | waitSeed
  | readout (n : Nat)
  deriving DecidableEq, Repr

end Sys2Proof
end

