-- ==== Sys2Proof/Machine/RegisterMap.lean ====
section
/-! DEFINITION. The register window's map (10_state.md R22) and the decoding of an offset (20_memory.md R61). -/

namespace Sys2Proof.Machine

/-- How the host may use a register (10_state.md R22). -/
inductive Access where
  | rw | ro | wo
  deriving DecidableEq, Repr

/-- One row of the map: the register, its first byte offset, its number of words, its access. -/
structure RegRow where
  name : RegName
  base : Nat
  words : Nat
  access : Access
  deriving DecidableEq, Repr

/-- The map of 10_state.md R22. Every word offset in no row is reserved (R23). -/
def regMap : List RegRow := [
  ⟨.cap, 0x000, 1, .ro⟩,
  ⟨.status, 0x004, 1, .ro⟩,
  ⟨.cmd, 0x008, 1, .wo⟩,
  ⟨.len, 0x00C, 1, .rw⟩,
  ⟨.adLen, 0x010, 1, .rw⟩,
  ⟨.riLo, 0x014, 1, .rw⟩,
  ⟨.riHi, 0x018, 1, .rw⟩,
  ⟨.outAvail, 0x01C, 1, .ro⟩,
  ⟨.outData, 0x020, 1, .ro⟩,
  ⟨.drbgRcLo, 0x024, 1, .ro⟩,
  ⟨.drbgRcHi, 0x028, 1, .ro⟩,
  ⟨.drbgRiLo, 0x02C, 1, .ro⟩,
  ⟨.drbgRiHi, 0x030, 1, .ro⟩,
  ⟨.keyIn, 0x040, 8, .rw⟩,
  ⟨.ctrIn, 0x060, 4, .rw⟩,
  ⟨.ctrOut, 0x070, 4, .ro⟩,
  ⟨.entIn, 0x080, 12, .rw⟩,
  ⟨.adIn, 0x0B0, 12, .rw⟩,
  ⟨.rks, 0x100, 60, .ro⟩,
  ⟨.drbgK, 0x200, 8, .ro⟩,
  ⟨.drbgV, 0x220, 4, .ro⟩]

/-- The row of a register. -/
def regRow (r : RegName) : RegRow :=
  (regMap.find? fun row => decide (row.name = r)).getD ⟨r, 0, 0, .ro⟩

/-- The byte offset of word `k` of a register. -/
def regOffset (r : RegName) (k : Nat) : BitVec 32 :=
  BitVec.ofNat 32 ((regRow r).base + 4 * k)

/-- `off[11:2]`, the word an offset selects: bits [1:0] are ignored, bits above 11 not decoded (20_memory.md R61). -/
def wordIndex (off : BitVec 32) : Nat := (off.extractLsb' 2 10).toNat

/-- The register and the word of it that an offset selects; `none` for a reserved offset (10_state.md R22, R23). -/
def locate (off : BitVec 32) : Option (RegName × Nat) :=
  (regMap.find? fun row =>
    decide (row.base / 4 ≤ wordIndex off ∧ wordIndex off < row.base / 4 + row.words)).map fun row =>
      (row.name, wordIndex off - row.base / 4)

/-- The RW byte-string registers (10_state.md R22), the ones LOADB may name. DESIGN CHOICE: 30_encoding.md R101 does not
say which registers its `<buf>` may be (log 22). -/
def isBuffer : RegName → Bool
  | .keyIn | .ctrIn | .entIn | .adIn => true
  | .cap | .status | .cmd | .len | .adLen | .riLo | .riHi | .outAvail | .outData
  | .drbgRcLo | .drbgRcHi | .drbgRiLo | .drbgRiHi | .ctrOut | .rks | .drbgK | .drbgV => false

end Sys2Proof.Machine
end

