-- ==== Sys2Proof/WellFormed.lean ====
section
/-! DEFINITION. Which commands and script lines are well formed. -/

namespace Sys2Proof

/-- Every command is well formed with every value of its flags: a flag that the command does not read "may be 0 or
1 and changes nothing" (30_encoding.md R92), and the type admits nothing else. -/
def Instr.wf : Instr → Bool
  | .aesExpand _ | .aesCtr _ | .aesCtrZeroiv _ | .aesCtrRks _ | .ctrInc _ | .rksClear _
  | .drbgSeed _ | .drbgReseed _ | .drbgGenerate _ | .drbgConfigSeeder _ | .drbgSeedResponse _
  | .drbgDestroy _ => true

/-- A script line is well formed when its word index lies in its register, its immediate is below 2^32 (2^64 for
LDI64), and a LOADB gives a whole number of words no longer than its buffer (30_encoding.md R100, R101). That the
buffer is a writable one is the model's choice (DESIGN CHOICE, log 22). -/
def ScriptLine.wf : ScriptLine → Bool
  | .wr reg k imm => decide (k < (Machine.regRow reg).words) && decide (imm < 2 ^ 32)
  | .rd reg k => decide (k < (Machine.regRow reg).words)
  | .cmd i => i.wf
  | .loadb buf bytes =>
      Machine.isBuffer buf && decide (bytes.length % 4 = 0)
        && decide (bytes.length ≤ 4 * (Machine.regRow buf).words)
  | .ldi64 imm => decide (imm < 2 ^ 64)
  | .waitIdle => true
  | .waitSeed => true
  | .readout _ => true

end Sys2Proof
end

