-- ==== Sys2Proof/Decode.lean ====
section
/-! DEFINITION. The decoder and encoder of the command word (30_encoding.md R90 to R99), and the expansion of a
script line into bus operations (R100, R101). -/

namespace Sys2Proof

/-- Why a word is no command (30_encoding.md R96). -/
inductive DecodeError where
  /-- `w[31:11] ≠ 0` (R96, 1). -/
  | reservedBitsSet
  /-- `w[7:0]` is not an opcode of R94 (R96, 2). -/
  | unknownOpcode
  deriving DecidableEq, Repr

/-- OPC, bits [7:0] (30_encoding.md R91). -/
def opcField (w : Word) : BitVec 8 := w.extractLsb' 0 8

/-- RSVD, bits [31:11] (R91). -/
def rsvdField (w : Word) : BitVec 21 := w.extractLsb' 11 21

/-- ADV, OUTV and SEEDER, bits 8, 9 and 10, "taken from the word without extension" (R91, R92). -/
def flagsField (w : Word) : CmdFlags := ⟨w.getLsbD 8, w.getLsbD 9, w.getLsbD 10⟩

/-- The command of an opcode, with its flags (30_encoding.md R94); `none` for an illegal opcode (R96, R97). -/
def commandOf (opc : BitVec 8) (f : CmdFlags) : Option Instr :=
  match opc.toNat with
  | 0x01 => some (.aesExpand f)
  | 0x02 => some (.aesCtr f)
  | 0x03 => some (.aesCtrZeroiv f)
  | 0x04 => some (.aesCtrRks f)
  | 0x05 => some (.ctrInc f)
  | 0x06 => some (.rksClear f)
  | 0x10 => some (.drbgSeed f)
  | 0x11 => some (.drbgReseed f)
  | 0x12 => some (.drbgGenerate f)
  | 0x13 => some (.drbgConfigSeeder f)
  | 0x14 => some (.drbgSeedResponse f)
  | 0x15 => some (.drbgDestroy f)
  | _ => none

/-- The decode function, total on every 32-bit word, the reserved bits first (30_encoding.md R99). -/
def decode (w : Word) : Except DecodeError Instr :=
  if rsvdField w ≠ 0 then .error .reservedBitsSet
  else
    match commandOf (opcField w) (flagsField w) with
    | some i => .ok i
    | none => .error .unknownOpcode

/-- The opcode of a command (30_encoding.md R94). -/
def Instr.opcode : Instr → BitVec 8
  | .aesExpand _ => 0x01
  | .aesCtr _ => 0x02
  | .aesCtrZeroiv _ => 0x03
  | .aesCtrRks _ => 0x04
  | .ctrInc _ => 0x05
  | .rksClear _ => 0x06
  | .drbgSeed _ => 0x10
  | .drbgReseed _ => 0x11
  | .drbgGenerate _ => 0x12
  | .drbgConfigSeeder _ => 0x13
  | .drbgSeedResponse _ => 0x14
  | .drbgDestroy _ => 0x15

/-- The flags a command carries. -/
def Instr.flags : Instr → CmdFlags
  | .aesExpand f | .aesCtr f | .aesCtrZeroiv f | .aesCtrRks f | .ctrInc f | .rksClear f
  | .drbgSeed f | .drbgReseed f | .drbgGenerate f | .drbgConfigSeeder f | .drbgSeedResponse f
  | .drbgDestroy f => f

/-- The command word of a command: RSVD 0, SEEDER, OUTV, ADV, OPC from bit 31 down (30_encoding.md R91, R100). -/
def encode (i : Instr) : Word :=
  ((0#21 ++ BitVec.ofBool i.flags.seeder ++ BitVec.ofBool i.flags.outv ++ BitVec.ofBool i.flags.adv
    ++ i.opcode) : BitVec 32)

/-- One row of the opcode map: a word matches when `w AND mask = pattern` (30_encoding.md R94). -/
structure OpcodeRow where
  mnemonic : String
  pattern : Word
  mask : Word
  deriving DecidableEq, Repr

/-- The opcode map as rows of pattern and mask (30_encoding.md R94; 90_conflicts.md C16 for the mask). -/
def opcodeTable : List OpcodeRow := [
  ⟨"AES_EXPAND", 0x00000001, 0xFFFFF8FF⟩,
  ⟨"AES_CTR", 0x00000002, 0xFFFFF8FF⟩,
  ⟨"AES_CTR_ZEROIV", 0x00000003, 0xFFFFF8FF⟩,
  ⟨"AES_CTR_RKS", 0x00000004, 0xFFFFF8FF⟩,
  ⟨"CTR_INC", 0x00000005, 0xFFFFF8FF⟩,
  ⟨"RKS_CLEAR", 0x00000006, 0xFFFFF8FF⟩,
  ⟨"DRBG_SEED", 0x00000010, 0xFFFFF8FF⟩,
  ⟨"DRBG_RESEED", 0x00000011, 0xFFFFF8FF⟩,
  ⟨"DRBG_GENERATE", 0x00000012, 0xFFFFF8FF⟩,
  ⟨"DRBG_CONFIG_SEEDER", 0x00000013, 0xFFFFF8FF⟩,
  ⟨"DRBG_SEED_RESPONSE", 0x00000014, 0xFFFFF8FF⟩,
  ⟨"DRBG_DESTROY", 0x00000015, 0xFFFFF8FF⟩]

/-- The rows of the opcode map that a word matches. -/
def matchingRows (w : Word) : List OpcodeRow :=
  opcodeTable.filter fun row => decide (w &&& row.mask = row.pattern)

/-- The command word whose low `nbits` bits are those of `w`, every bit above them 0 (log 13). -/
def tableWord (nbits w : Nat) : Word := BitVec.ofNat 32 (w % 2 ^ nbits)

/-- What the decoder reads from a row of the opcode table: the instruction is one 32-bit word, so a row of more
bits is none (log 13). -/
def decodeTableWord (nbits w : Nat) : Option Instr :=
  if nbits ≤ 32 then (decode (tableWord nbits w)).toOption else none

/-- Writes of consecutive words of a register, from word `k` on. -/
def writeWords (reg : RegName) : Nat → List Word → List HostOp
  | _, [] => []
  | k, w :: ws => .write (Machine.regOffset reg k) w :: writeWords reg (k + 1) ws

/-- The bus operations a script line expands to (30_encoding.md R100, R101). -/
def ScriptLine.expand : ScriptLine → List HostOp
  | .wr reg k imm => [.write (Machine.regOffset reg k) (BitVec.ofNat 32 imm)]
  | .rd reg k => [.read (Machine.regOffset reg k)]
  | .cmd i => [.write (Machine.regOffset .cmd 0) (encode i)]
  | .loadb buf bytes => writeWords buf 0 (Machine.wordsOfBytes bytes)
  | .ldi64 imm =>
      [.write (Machine.regOffset .riLo 0) (BitVec.ofNat 32 imm),
       .write (Machine.regOffset .riHi 0) (BitVec.ofNat 32 (imm / 2 ^ 32))]
  | .waitIdle => [.waitIdle]
  | .waitSeed => [.waitSeed]
  | .readout n => List.replicate ((n + 3) / 4) (.read (Machine.regOffset .outData 0))

/-- The bus operations of a whole script. -/
def expandScript (lines : List ScriptLine) : List HostOp := lines.flatMap ScriptLine.expand

end Sys2Proof
end

