-- ==== Sys2Proof/Machine/State.lean ====
section
/-! DEFINITION. The state of one block (10_state.md), the reasons a step can stop, and the state after reset. -/

namespace Sys2Proof.Machine

/-- The result codes of STATUS.ERR (60_exceptions.md R261); codes 5 to 15 are never produced (log 10). -/
inductive ResultCode where
  | ok | badLength | needReseed | illegalCmd | notReady
  deriving DecidableEq, Repr

/-- CTX_STATE (10_state.md R37). -/
inductive CtxState where
  | uninit | seeded
  deriving DecidableEq, Repr

/-- The DRBG context (10_state.md R37). -/
structure DrbgContext where
  state : CtxState
  k : Bytes 32
  v : Bytes 16
  rc : BitVec 64
  ri : BitVec 64
  seederPresent : Bool
  deriving DecidableEq, Repr

/-- What Accept copies: the command word and the operand registers (20_memory.md R73, 30_encoding.md R93). A command
uses only the operands R93 lists for it; the word is decoded at Complete (R95), so all are copied (log 7).
`seedBytes` is SEEDBYTES, present once a seed response has been accepted (42_drbg.md R221). -/
structure Snapshot where
  word : Word
  keyIn : Bytes 32
  ctrIn : Bytes 16
  len : Word
  rks : Bytes 240
  rksValid : Bool
  entIn : Bytes 48
  adIn : Bytes 48
  adLen : Word
  riOp : BitVec 64
  seedBytes : Option (Bytes 48)
  deriving DecidableEq, Repr

/-- SEQ, the sequencer state that takes the place of a program counter (10_state.md R38). -/
inductive Seq where
  | idle
  | run (snap : Snapshot)
  | waitSeed (snap : Snapshot)
  deriving DecidableEq, Repr

/-- The two agents that step the block (10_state.md R20). -/
inductive Agent where
  | host | engine
  deriving DecidableEq, Repr

/-- The faults of the issuing program that a model records and never clears (60_exceptions.md R278). They stop
nothing: the hardware's behaviour goes on. -/
inductive ProgramFault where
  | illegalCmd | notReady | overrun
  deriving DecidableEq, Repr

/-- Why a step stops with a fault. -/
inductive Fault where
  /-- Raised by a step in WAIT_SEED when the host does nothing more, or waits in WAITIDLE: the engine is stuck
  (42_drbg.md R220; 60_exceptions.md R278). Safe: the model stops where the hardware waits for ever (log 4). -/
  | seedNeverAnswered
  /-- Raised by a command's meaning in a state whose SEQ is not the one it completes or is accepted in. No step
  raises it. Safe (log 6). -/
  | engineNotRunning
  deriving DecidableEq, Repr

/-- Why a step is refused. -/
inductive Refusal where
  /-- Raised by `exec` for a command that has no meaning yet; no arm does. Safe. -/
  | notModelled (mnemonic : String)
  /-- Raised by the host port for a byte or halfword transfer, which "is outside this spec; a model refuses such a
  transfer" (20_memory.md R65). Safe (log 5). -/
  | narrowTransfer
  deriving DecidableEq, Repr

/-- The state of one block and of the host's side of its port. Plain data. -/
structure State where
  /-- SEQ (10_state.md R38). -/
  seq : Seq
  /-- STATUS.OVR (R25). -/
  ovr : Bool
  /-- STATUS.ERR (R25). -/
  err : ResultCode
  /-- STATUS.RKS_VALID (R36). -/
  rksValid : Bool
  /-- LEN (R27). -/
  len : Word
  /-- ADLEN (R28). -/
  adLen : Word
  /-- RI_LO (R29). -/
  riLo : Word
  /-- RI_HI (R29). -/
  riHi : Word
  /-- KEY_IN (R31). -/
  keyIn : Bytes 32
  /-- CTR_IN (R32). -/
  ctrIn : Bytes 16
  /-- ENT_IN (R34). -/
  entIn : Bytes 48
  /-- AD_IN (R35). -/
  adIn : Bytes 48
  /-- OUT, the unread bytes, next first (R30). -/
  out : List Byte
  /-- CTR_OUT (R33). -/
  ctrOut : Bytes 16
  /-- RKS (R36). -/
  rks : Bytes 240
  /-- The DRBG context (R37). -/
  ctx : DrbgContext
  /-- The model's own: what the host does next, in order (log 2). -/
  script : List HostOp
  /-- The model's own: the values the host's reads returned, oldest first (30_encoding.md R100). -/
  notes : List Word
  /-- The model's own: which agent moves at each coming step; used up, the engine moves when it can (log 1). -/
  schedule : List Agent
  /-- The model's own: the program faults recorded so far, oldest first (60_exceptions.md R278). -/
  marks : List ProgramFault
  deriving DecidableEq, Repr

/-- The context after reset and after DRBG_DESTROY (10_state.md R37, R44; 42_drbg.md R228). -/
def DrbgContext.cleared : DrbgContext where
  state := .uninit
  k := zeroBytes 32
  v := zeroBytes 16
  rc := 0
  ri := Config.noSeederInterval
  seederPresent := false

/-- The state after a hardware reset (10_state.md R44), with nothing yet asked by the host (log 2, log 3). -/
def State.reset : State where
  seq := .idle
  ovr := false
  err := .ok
  rksValid := false
  len := 0
  adLen := 0
  riLo := 0
  riHi := 0
  keyIn := zeroBytes 32
  ctrIn := zeroBytes 16
  entIn := zeroBytes 48
  adIn := zeroBytes 48
  out := []
  ctrOut := zeroBytes 16
  rks := zeroBytes 240
  ctx := DrbgContext.cleared
  script := []
  notes := []
  schedule := []
  marks := []

end Sys2Proof.Machine
end

