-- ==== Sys2Proof/Machine/Flags.lean ====
section
/-! DEFINITION. The fields of STATUS and the constant CAP (10_state.md R24, R25, R39). -/

namespace Sys2Proof.Machine

/-- The number of a result code (60_exceptions.md R261). -/
def ResultCode.code : ResultCode → BitVec 4
  | .ok => 0
  | .badLength => 1
  | .needReseed => 2
  | .illegalCmd => 3
  | .notReady => 4

/-- The mark a result code leaves on the program that earned it (60_exceptions.md R278). -/
def ResultCode.marks : ResultCode → List ProgramFault
  | .illegalCmd => [.illegalCmd]
  | .notReady => [.notReady]
  | .ok | .badLength | .needReseed => []

/-- STATUS.BUSY: 1 while SEQ is not IDLE (10_state.md R25). -/
def busy (s : State) : Bool :=
  match s.seq with
  | .idle => false
  | .run _ | .waitSeed _ => true

/-- STATUS.SEED_REQ: 1 while SEQ = WAIT_SEED (R25). -/
def seedReq (s : State) : Bool :=
  match s.seq with
  | .waitSeed _ => true
  | .idle | .run _ => false

/-- Exhausted: RC > 2^48, strict and unsigned (42_drbg.md R213). -/
def exhausted (rc : BitVec 64) : Bool := decide (rc.toNat > Config.reseedCeiling)

/-- STATUS.DSTATE, computed from the context (10_state.md R39). -/
def dstate (c : DrbgContext) : BitVec 2 :=
  match c.state with
  | .uninit => 0
  | .seeded => if exhausted c.rc then 2 else 1

/-- The STATUS word: reserved, PR_EN, DSTATE, ERR, RKS_VALID, OVR, SEED_REQ, BUSY from bit 31 down (R25). -/
def statusWord (s : State) : Word :=
  (0#21 ++ BitVec.ofBool s.ctx.seederPresent ++ dstate s.ctx ++ s.err.code ++ BitVec.ofBool s.rksValid
    ++ BitVec.ofBool s.ovr ++ BitVec.ofBool (seedReq s) ++ BitVec.ofBool (busy s) : BitVec 32)

/-- CAP: bit 0 HW_AES, bit 1 PAR4, the rest 0 (10_state.md R24). -/
def capWord : Word := 0x00000003

end Sys2Proof.Machine
end

