-- ==== Sys2Proof/Machine/Operands.lean ====
section
/-! DEFINITION. The operands of the commands: the snapshot taken at Accept and the checks made on lengths. -/

namespace Sys2Proof.Machine

/-- RI_OP = RI_HI * 2^32 + RI_LO (10_state.md R29). -/
def riOp (s : State) : BitVec 64 := s.riHi ++ s.riLo

/-- The snapshot of word `w` and the operand registers, as Accept takes it (20_memory.md R73). -/
def snapshot (w : Word) (s : State) : Snapshot where
  word := w
  keyIn := s.keyIn
  ctrIn := s.ctrIn
  len := s.len
  rks := s.rks
  rksValid := s.rksValid
  entIn := s.entIn
  adIn := s.adIn
  adLen := s.adLen
  riOp := riOp s
  seedBytes := none

/-- `BadAdLen(n, adv) = (n > 48) or (n ≠ 0 and adv = 0)` (42_drbg.md R204). -/
def badAdLen (n : Nat) (adv : Bool) : Bool :=
  decide (n > Config.maxAdata) || (decide (n ≠ 0) && !adv)

/-- The generate length check: `LEN > 65535` or OUTV = 0 (42_drbg.md R211). -/
def badGenLen (n : Nat) (outv : Bool) : Bool := decide (n > Config.maxGenerate) || !outv

/-- The prediction-resistance trigger: SEEDER_PRESENT = 1 and RC > RI, strict and unsigned (42_drbg.md R212). -/
def seedTrigger (c : DrbgContext) : Bool := c.seederPresent && decide (c.rc.toNat > c.ri.toNat)

/-- `nblocks(L) = (L + 15) div 16` (41_ctr_engine.md R162). -/
def nblocks (l : Nat) : Nat := (l + 15) / 16

end Sys2Proof.Machine
end

