-- ==== Sys2Proof/Machine/Ops.lean ====
section
/-! DEFINITION. The shared operations: ending a command, accepting and rejecting a command word, reading and writing
the register window, hardware reset. -/

namespace Sys2Proof.Machine

/-- `finish(code)` (00_scope.md R9): ERR is written, SEQ returns to IDLE, nothing else of the block changes
(60_exceptions.md R263). It also records the program's fault, if the code is one (R278). The block has no trap, so
this is how every command ends (R260). -/
def finish (code : ResultCode) (s : State) : State :=
  { s with seq := .idle, err := code, marks := s.marks ++ code.marks }

/-- A Complete step: `body` gives the state after it from the snapshot of the running command (10_state.md R38). -/
def complete (s : State) (body : Snapshot → State) : Host.Outcome State Fault Refusal :=
  match s.seq with
  | .run snap => .next (body snap)
  | .idle | .waitSeed _ => .fault .engineNotRunning

/-- Accept in IDLE: SEQ takes the snapshot, OVR clears; ERR keeps the previous code (30_encoding.md R95;
10_state.md R43). -/
def acceptCommand (w : Word) (s : State) : State :=
  { s with seq := .run (snapshot w s), ovr := false }

/-- A rejected CMD write: OVR is set and the word has no other effect (60_exceptions.md R265); the program's fault is
recorded (R278). -/
def rejectCommand (s : State) : State :=
  { s with ovr := true, marks := s.marks ++ [.overrun] }

/-- Accept of DRBG_SEED_RESPONSE for the waiting generate: SEQ returns to RUN with SEEDBYTES = ENT_IN, OVR clears
(42_drbg.md R221). -/
def acceptSeedResponse (g : Snapshot) (s : State) : State :=
  { s with seq := .run { g with seedBytes := some s.entIn }, ovr := false }

/-- Is the word one the engine takes in WAIT_SEED: w[7:0] = 0x14 and w[31:11] = 0 (30_encoding.md R95)? -/
def isSeedResponse (w : Word) : Bool := decide (opcField w = 0x14) && decide (rsvdField w = 0)

/-- A CMD write presents the word to the engine (30_encoding.md R95). -/
def presentCommand (w : Word) (s : State) : State :=
  match s.seq with
  | .idle => acceptCommand w s
  | .waitSeed g => if isSeedResponse w then acceptSeedResponse g s else rejectCommand s
  | .run _ => rejectCommand s

/-- The word OUT_DATA reads: the next bytes of OUT, "bytes not present read as 0 in the low-order positions"
(20_memory.md R67). -/
def outWord (out : List Byte) : Word :=
  packWord (out.getD 0 0) (out.getD 1 0) (out.getD 2 0) (out.getD 3 0)

/-- The value of `RegRead` of word `k` of a register (20_memory.md R68). -/
def readReg (r : RegName) (k : Nat) (s : State) : Word :=
  match r with
  | .cap => capWord
  | .status => statusWord s
  | .cmd => 0
  | .len => s.len
  | .adLen => s.adLen
  | .riLo => s.riLo
  | .riHi => s.riHi
  | .outAvail => BitVec.ofNat 32 s.out.length
  | .outData => outWord s.out
  | .drbgRcLo => s.ctx.rc.extractLsb' 0 32
  | .drbgRcHi => s.ctx.rc.extractLsb' 32 32
  | .drbgRiLo => s.ctx.ri.extractLsb' 0 32
  | .drbgRiHi => s.ctx.ri.extractLsb' 32 32
  | .keyIn => wordOf s.keyIn k
  | .ctrIn => wordOf s.ctrIn k
  | .ctrOut => wordOf s.ctrOut k
  | .entIn => wordOf s.entIn k
  | .adIn => wordOf s.adIn k
  | .rks => wordOf s.rks k
  | .drbgK => wordOf s.ctx.k k
  | .drbgV => wordOf s.ctx.v k

/-- The value `RegRead(off)` returns; 0 at a reserved offset (20_memory.md R68; 10_state.md R23). -/
def regReadValue (off : BitVec 32) (s : State) : Word :=
  match locate off with
  | some (r, k) => readReg r k s
  | none => 0

/-- What `RegRead(off)` does to the block: a read of OUT_DATA pops up to 4 bytes, every other read does nothing
(20_memory.md R67). -/
def regReadEffect (off : BitVec 32) (s : State) : State :=
  match locate off with
  | some (.outData, _) => { s with out := s.out.drop 4 }
  | _ => s

/-- `RegWrite` of word `k` of a register (20_memory.md R69): a write to an RO register is ignored. -/
def writeReg (r : RegName) (k : Nat) (w : Word) (s : State) : State :=
  match r with
  | .cmd => presentCommand w s
  | .len => { s with len := w }
  | .adLen => { s with adLen := w }
  | .riLo => { s with riLo := w }
  | .riHi => { s with riHi := w }
  | .keyIn => { s with keyIn := storeWord s.keyIn k w }
  | .ctrIn => { s with ctrIn := storeWord s.ctrIn k w }
  | .entIn => { s with entIn := storeWord s.entIn k w }
  | .adIn => { s with adIn := storeWord s.adIn k w }
  | .cap | .status | .outAvail | .outData | .drbgRcLo | .drbgRcHi | .drbgRiLo | .drbgRiHi
  | .ctrOut | .rks | .drbgK | .drbgV => s

/-- `RegWrite(off, v)`; a write to a reserved offset is ignored (20_memory.md R69; 10_state.md R23). -/
def regWrite (off : BitVec 32) (w : Word) (s : State) : State :=
  match locate off with
  | some (r, k) => writeReg r k w s
  | none => s

/-- Hardware reset: every piece of the block's state takes its value of 10_state.md R44; a running or waiting command
is abandoned (70_reset_and_hazards.md R290). The host's side goes on, and the marks are never cleared
(60_exceptions.md R278; log 9). -/
def hardwareReset (s : State) : State :=
  { State.reset with script := s.script, notes := s.notes, schedule := s.schedule, marks := s.marks }

/-- The block with a host script to perform, as a program is given to the model (log 2). -/
def State.withScript (lines : List ScriptLine) (s : State) : State :=
  { s with script := expandScript lines }

end Sys2Proof.Machine
end

