-- ==== Sys2Proof/Machine/Aes.lean ====
section
/-! DEFINITION. The commands on the stored schedule: AES_EXPAND, RKS_CLEAR (40_aes_core.md R134, R135). -/

namespace Sys2Proof.Machine

/-- AES_EXPAND (40_aes_core.md R134). -/
def execAesExpand (_f : CmdFlags) (s : State) : Host.Outcome State Fault Refusal :=
  complete s fun snap => finish .ok { s with rks := keySchedule snap.keyIn, rksValid := true }

/-- RKS_CLEAR (40_aes_core.md R135). -/
def execRksClear (_f : CmdFlags) (s : State) : Host.Outcome State Fault Refusal :=
  complete s fun _ => finish .ok { s with rks := zeroBytes 240, rksValid := false }

end Sys2Proof.Machine
end

