-- ==== Sys2Proof/Machine/CtrCore.lean ====
section
/-! DEFINITION. The 128-bit counter and the keystream engine with its two paths (41_ctr_engine.md R160 to R167). -/

namespace Sys2Proof.Machine

/-- The byte string with byte `i` replaced. -/
def setByte {n : Nat} (b : Bytes n) (i : Nat) (x : Byte) : Bytes n :=
  tabulate fun j => if j.val = i then x else byteAt b j

/-- The ripple of `Inc128` over bytes i - 1 down to 0 (R160). -/
def incFrom (c : Bytes 16) : Nat → Bytes 16
  | 0 => c
  | i + 1 =>
      let x := byteAt c i + 1
      let c' := setByte c i x
      if x ≠ 0 then c' else incFrom c' i

/-- `Inc128(C)`, the big-endian increment, carry from byte 15 toward byte 0, silent wrap (R160). -/
def inc128 (c : Bytes 16) : Bytes 16 := incFrom c 16

/-- `Add128(C, n) = bytes16((be128(C) + n) mod 2^128)` (R161). -/
def add128 (c : Bytes 16) (n : Nat) : Bytes 16 := beBytes 16 ((beNat c + n) % 2 ^ 128)

/-- `Keystream(RK, C, L)`: block i encrypts Add128(C, i), the last block truncated (R163). -/
def keystream (rk : Schedule) (c : Bytes 16) (l : Nat) : List Byte :=
  ((List.range (nblocks l)).flatMap fun i => (aesEncrypt rk (add128 c i)).toList).take l

/-- `CounterAfter(C, L)` (R163). -/
def counterAfter (c : Bytes 16) (l : Nat) : Bytes 16 := add128 c (nblocks l)

/-- The scalar path's loop, at most `fuel` blocks: one block, the counter incremented after use (R164). -/
def scalarLoop (rk : Schedule) : Nat → Bytes 16 → Nat → List Byte × Bytes 16
  | 0, c, _ => ([], c)
  | fuel + 1, c, rem =>
      if rem = 0 then ([], c)
      else
        let b := (aesEncrypt rk c).toList.take (min 16 rem)
        let (out, c') := scalarLoop rk fuel (inc128 c) (rem - min 16 rem)
        (b ++ out, c')

/-- `KeystreamScalar(RK, C, L)` (R164). -/
def keystreamScalar (rk : Schedule) (c : Bytes 16) (l : Nat) : List Byte × Bytes 16 :=
  scalarLoop rk (nblocks l) c l

/-- The four AES states of the parallel path (10_state.md R42, 2). -/
structure Lanes where
  s0 : Bytes 16
  s1 : Bytes 16
  s2 : Bytes 16
  s3 : Bytes 16
  deriving DecidableEq, Repr

/-- One operation applied to all four lanes. -/
def Lanes.map (f : Bytes 16 → Bytes 16) (l : Lanes) : Lanes := ⟨f l.s0, f l.s1, f l.s2, f l.s3⟩

/-- `n` full rounds on all lanes, round r applied to every lane before round r + 1 starts (R165). -/
def laneRounds (rk : Schedule) : Nat → Nat → Lanes → Lanes
  | 0, _, l => l
  | n + 1, r, l => laneRounds rk n (r + 1) (l.map fun s => aesRound s (roundKey rk r))

/-- `Group4(RK, c)`: 64 bytes, lane 0 first, and the next counter (R165). -/
def group4 (rk : Schedule) (c : Bytes 16) : List Byte × Bytes 16 :=
  let c1 := inc128 c
  let c2 := inc128 c1
  let c3 := inc128 c2
  let start : Lanes := (Lanes.mk c c1 c2 c3).map fun s => addRoundKey s (roundKey rk 0)
  let l := (laneRounds rk (Config.rounds - 1) 1 start).map fun s => aesFinalRound s (roundKey rk Config.rounds)
  (l.s0.toList ++ l.s1.toList ++ l.s2.toList ++ l.s3.toList, inc128 c3)

/-- The engine's loop, at most `fuel` groups: the 4-lane path while at least 64 bytes remain, then the scalar path
(R166). -/
def engineLoop (rk : Schedule) : Nat → Bytes 16 → Nat → List Byte × Bytes 16
  | 0, c, rem => keystreamScalar rk c rem
  | fuel + 1, c, rem =>
      if rem ≥ Config.groupBytes then
        let (g, c') := group4 rk c
        let (out, c'') := engineLoop rk fuel c' (rem - Config.groupBytes)
        (g ++ out, c'')
      else keystreamScalar rk c rem

/-- `EngineKeystream(RK, C, L)` (R166). -/
def engineKeystream (rk : Schedule) (c : Bytes 16) (l : Nat) : List Byte × Bytes 16 :=
  engineLoop rk (l / Config.groupBytes) c l

end Sys2Proof.Machine
end

