-- ==== Sys2Proof/Machine/Ctr.lean ====
section
/-! DEFINITION. The keystream and counter commands (41_ctr_engine.md R169 to R172). -/

namespace Sys2Proof.Machine

/-- The commit the keystream commands share: OUT and CTR_OUT from one run of the engine (R169 to R171). -/
def commitKeystream (rk : Schedule) (c : Bytes 16) (l : Nat) (s : State) : State :=
  let r := engineKeystream rk c l
  finish .ok { s with out := r.1, ctrOut := r.2 }

/-- AES_CTR (R169): the schedule is expanded from KEY_IN for this command alone (40_aes_core.md R136). -/
def execAesCtr (_f : CmdFlags) (s : State) : Host.Outcome State Fault Refusal :=
  complete s fun snap => commitKeystream (keySchedule snap.keyIn) snap.ctrIn snap.len.toNat s

/-- AES_CTR_ZEROIV (R170): the counter is 0^16, CTR_IN is not read. -/
def execAesCtrZeroiv (_f : CmdFlags) (s : State) : Host.Outcome State Fault Refusal :=
  complete s fun snap => commitKeystream (keySchedule snap.keyIn) (zeroBytes 16) snap.len.toNat s

/-- AES_CTR_RKS (R171): the schedule is RKS; NOT_READY when there is none. -/
def execAesCtrRks (_f : CmdFlags) (s : State) : Host.Outcome State Fault Refusal :=
  complete s fun snap =>
    if snap.rksValid then commitKeystream snap.rks snap.ctrIn snap.len.toNat s else finish .notReady s

/-- CTR_INC (R172). -/
def execCtrInc (_f : CmdFlags) (s : State) : Host.Outcome State Fault Refusal :=
  complete s fun snap => finish .ok { s with ctrOut := inc128 snap.ctrIn }

end Sys2Proof.Machine
end

