-- ==== Sys2Proof/Machine/DrbgCore.lean ====
section
/-! DEFINITION. The shared functions of the DRBG (42_drbg.md R201 to R203). -/

namespace Sys2Proof.Machine

/-- Three blocks side by side, 48 bytes. -/
def threeBlocks (a b c : Bytes 16) : Bytes 48 := appendBytes (appendBytes a b) c

/-- K of a 48-byte working value: T[0..32) (10_state.md R40, 20_memory.md R64). -/
def keyPart (t : Bytes 48) : Bytes 32 := sliceBytes t 0 32

/-- V of a 48-byte working value: T[32..48) (R40, R64). -/
def ctrPart (t : Bytes 48) : Bytes 16 := sliceBytes t 32 16

/-- `DrbgUpdate(K, V, P)`: one key for the three blocks, the counter advanced before each (42_drbg.md R201). -/
def drbgUpdate (k : Bytes 32) (v : Bytes 16) (p : Bytes 48) : Bytes 32 × Bytes 16 :=
  let rk := keySchedule k
  let v1 := inc128 v
  let v2 := inc128 v1
  let v3 := inc128 v2
  let t := xorBytes (threeBlocks (aesEncrypt rk v1) (aesEncrypt rk v2) (aesEncrypt rk v3)) p
  (keyPart t, ctrPart t)

/-- MASK, the domain-separation mask (42_drbg.md R202). -/
def seedMask : Bytes 48 :=
  beBytes 48
    0x530f8afbc74536b9a963b4f1c4cb738bcea7403d4d606b6e074ec5d3baf39d18726003ca37a62a74d1a2f58e7506358e

/-- `SeedMaterial(E, A, n)`: bytes below n are XORed, the others are entropy bytes (42_drbg.md R203). -/
def seedMaterial (e a : Bytes 48) (n : Nat) : Bytes 48 :=
  tabulate fun i => if i.val < n then byteAt e i ^^^ byteAt a i else byteAt e i

end Sys2Proof.Machine
end

