-- ==== Sys2Proof/Machine/Drbg.lean ====
section
/-! DEFINITION. The commands of the DRBG state machine (42_drbg.md R205 to R228). -/

namespace Sys2Proof.Machine

/-- DRBG_SEED (42_drbg.md R205): legal in every CTX_STATE, the old K and V are not read. -/
def execDrbgSeed (f : CmdFlags) (s : State) : Host.Outcome State Fault Refusal :=
  complete s fun snap =>
    if badAdLen snap.adLen.toNat f.adv then finish .badLength s
    else
      let t := xorBytes (seedMaterial snap.entIn snap.adIn snap.adLen.toNat) seedMask
      finish .ok { s with ctx :=
        { state := .seeded, k := keyPart t, v := ctrPart t, rc := 1,
          ri := Config.noSeederInterval, seederPresent := false } }

/-- DRBG_RESEED (42_drbg.md R207): NOT_READY is checked before BAD_LENGTH (60_exceptions.md R264). -/
def execDrbgReseed (f : CmdFlags) (s : State) : Host.Outcome State Fault Refusal :=
  complete s fun snap =>
    match s.ctx.state with
    | .uninit => finish .notReady s
    | .seeded =>
        if badAdLen snap.adLen.toNat f.adv then finish .badLength s
        else
          let kv := drbgUpdate s.ctx.k s.ctx.v (seedMaterial snap.entIn snap.adIn snap.adLen.toNat)
          finish .ok { s with ctx := { s.ctx with k := kv.1, v := kv.2, rc := 1 } }

/-- `GenerateBody(snap, K0, V0, RC0)` (42_drbg.md R210): the exhaustion check, the blocks from V0 + 1 on, the update
pass with no mixing material, RC0 + 1. -/
def generateBody (len : Nat) (k0 : Bytes 32) (v0 : Bytes 16) (rc0 : BitVec 64) (s : State) : State :=
  if exhausted rc0 then finish .needReseed s
  else
    let out := keystream (keySchedule k0) (inc128 v0) len
    let v1 := add128 v0 (nblocks len)
    let kv := drbgUpdate k0 v1 (zeroBytes 48)
    finish .ok { s with out := out, ctx := { s.ctx with k := kv.1, v := kv.2, rc := rc0 + 1 } }

/-- A generate that goes on with the seeder's bytes: an internal reseed, then the generation with RC = 1, in one
commit (42_drbg.md R221). -/
def resumeGenerate (seed : Bytes 48) (len : Nat) (s : State) : State :=
  let kv := drbgUpdate s.ctx.k s.ctx.v seed
  generateBody len kv.1 kv.2 1 s

/-- DRBG_GENERATE (42_drbg.md R210): NOT_READY, BAD_LENGTH, the prediction-resistance trigger, NEED_RESEED, in this
order (60_exceptions.md R264). With SEEDBYTES present it is the continuation of a waiting generate (R221). -/
def execDrbgGenerate (f : CmdFlags) (s : State) : Host.Outcome State Fault Refusal :=
  complete s fun snap =>
    match snap.seedBytes with
    | some seed => resumeGenerate seed snap.len.toNat s
    | none =>
        match s.ctx.state with
        | .uninit => finish .notReady s
        | .seeded =>
            if badGenLen snap.len.toNat f.outv then finish .badLength s
            else if seedTrigger s.ctx then { s with seq := .waitSeed snap }
            else generateBody snap.len.toNat s.ctx.k s.ctx.v s.ctx.rc s

/-- DRBG_CONFIG_SEEDER (42_drbg.md R223): legal in every CTX_STATE, with every RI_OP. -/
def execDrbgConfigSeeder (f : CmdFlags) (s : State) : Host.Outcome State Fault Refusal :=
  complete s fun snap =>
    if f.seeder then finish .ok { s with ctx := { s.ctx with seederPresent := true, ri := snap.riOp } }
    else finish .ok { s with ctx := { s.ctx with seederPresent := false, ri := Config.noSeederInterval } }

/-- DRBG_SEED_RESPONSE (42_drbg.md R221): in WAIT_SEED its Accept returns the waiting generate to RUN with the 48
bytes; accepted in IDLE, where no request is pending, it completes with ILLEGAL_CMD (30_encoding.md R96). -/
def execDrbgSeedResponse (_f : CmdFlags) (s : State) : Host.Outcome State Fault Refusal :=
  match s.seq with
  | .waitSeed g => .next (acceptSeedResponse g s)
  | .run _ => .next (finish .illegalCmd s)
  | .idle => .fault .engineNotRunning

/-- DRBG_DESTROY (42_drbg.md R228): the context is cleared and OUT emptied; RKS and the operands are not touched. -/
def execDrbgDestroy (_f : CmdFlags) (s : State) : Host.Outcome State Fault Refusal :=
  complete s fun _ => finish .ok { s with ctx := DrbgContext.cleared, out := [] }

end Sys2Proof.Machine
end

