-- ==== Sys2Proof/Machine/Dispatch.lean ====
section
/-! DEFINITION. The meaning of each command, one arm per constructor. -/

namespace Sys2Proof.Machine

def exec (i : Instr) (s : State) : Host.Outcome State Fault Refusal :=
  match i with
  | .aesExpand f => Sys2Proof.Machine.execAesExpand f s
  | .aesCtr f => Sys2Proof.Machine.execAesCtr f s
  | .aesCtrZeroiv f => Sys2Proof.Machine.execAesCtrZeroiv f s
  | .aesCtrRks f => Sys2Proof.Machine.execAesCtrRks f s
  | .ctrInc f => Sys2Proof.Machine.execCtrInc f s
  | .rksClear f => Sys2Proof.Machine.execRksClear f s
  | .drbgSeed f => Sys2Proof.Machine.execDrbgSeed f s
  | .drbgReseed f => Sys2Proof.Machine.execDrbgReseed f s
  | .drbgGenerate f => Sys2Proof.Machine.execDrbgGenerate f s
  | .drbgConfigSeeder f => Sys2Proof.Machine.execDrbgConfigSeeder f s
  | .drbgSeedResponse f => Sys2Proof.Machine.execDrbgSeedResponse f s
  | .drbgDestroy f => Sys2Proof.Machine.execDrbgDestroy f s

end Sys2Proof.Machine
end

