-- ==== Sys2Proof/Machine/Engine.lean ====
section
/-! DEFINITION. The steps of the two agents and the choice between them. -/

namespace Sys2Proof.Machine

/-- The agent that moves next, if any can: the host while its script lasts, the engine while in RUN; where both can,
the schedule's head says which, and the engine moves when the schedule is used up (20_memory.md R71;
70_reset_and_hazards.md R299; log 1). -/
def nextAgent (s : State) : Option Agent :=
  match s.seq, s.script with
  | .run _, [] => some .engine
  | .run _, _ :: _ => some (s.schedule.headD .engine)
  | .idle, [] | .waitSeed _, [] => none
  | .idle, _ :: _ | .waitSeed _, _ :: _ => some .host

/-- The state with one entry of the schedule used up, as every move of an agent does. -/
def tick (s : State) : State := { s with schedule := s.schedule.tail }

/-- The engine's Complete step: the word of the snapshot is decoded and its command performed (30_encoding.md R95);
an illegal word completes with ILLEGAL_CMD (R96). -/
def engineStep (s : State) : Host.Outcome State Fault Refusal :=
  match s.seq with
  | .run snap =>
      match decode snap.word with
      | .ok i => exec i s
      | .error _ => .next (finish .illegalCmd s)
  | .idle | .waitSeed _ => .fault .engineNotRunning

/-- A host read: the value is noted, the read's effect takes place (20_memory.md R67, R68; 30_encoding.md R100). -/
def hostRead (off : BitVec 32) (s : State) : State :=
  let v := regReadValue off s
  let s' := regReadEffect off s
  { s' with notes := s'.notes ++ [v] }

/-- One read of STATUS in a polling loop. -/
def pollStatus (s : State) : State := { s with notes := s.notes ++ [statusWord s] }

/-- The host performs one operation, `rest` being the script after it. A polling loop reads STATUS and stays at the
head of the script until its condition holds (30_encoding.md R101). -/
def hostStep (op : HostOp) (rest : List HostOp) (s : State) : Host.Outcome State Fault Refusal :=
  match op with
  | .read off => .next (hostRead off { s with script := rest })
  | .write off v => .next (regWrite off v { s with script := rest })
  | .narrow _ _ => .refused .narrowTransfer
  | .waitIdle =>
      if seedReq s then .fault .seedNeverAnswered
      else if busy s then .next (pollStatus s)
      else .next (pollStatus { s with script := rest })
  | .waitSeed =>
      if seedReq s || !busy s then .next (pollStatus { s with script := rest })
      else .next (pollStatus s)
  | .reset => .next (hardwareReset { s with script := rest })

/-- The host's move: the head of its script. With the script used up nothing is left to do: the block waits in IDLE
for a CMD write (10_state.md R44), and in WAIT_SEED the engine is stuck (60_exceptions.md R278). -/
def hostMove (s : State) : Host.Outcome State Fault Refusal :=
  match s.script with
  | op :: rest => hostStep op rest s
  | [] => .next s

/-- A step in which no agent can move. -/
def quietStep (s : State) : Host.Outcome State Fault Refusal :=
  if seedReq s then .fault .seedNeverAnswered else .next s

/-- `s` with the word laid where the engine's next Complete step fetches it: accepted into SEQ, and, where the host
has operations left, the engine to move next (log 2). -/
def withCommandWord (w : Word) (s : State) : State :=
  { acceptCommand w s with
    schedule := if s.script.isEmpty then s.schedule else .engine :: s.schedule }

end Sys2Proof.Machine
end

