-- ==== Sys2Proof/Machine/Step.lean ====
section
/-! DEFINITION. One step of the block: one move of the host or one step of the engine (10_state.md R20). -/

namespace Sys2Proof.Machine

/-- One step (20_memory.md R71: one total order of host accesses and engine steps). -/
def step (s : State) : Host.Outcome State Fault Refusal :=
  match nextAgent s with
  | some .engine => engineStep (tick s)
  | some .host => hostMove (tick s)
  | none => quietStep s

/-- `s` with the instruction `w` of `nbits` bits stored where `step` fetches its next instruction: as the command the
engine completes next (log 2, log 13). -/
def State.withFetchWord (s : State) (nbits w : Nat) : State := withCommandWord (tableWord nbits w) s

end Sys2Proof.Machine
end

