-- ==== Sys2Proof/Machine/Platform.lean ====
section
/-! DEFINITION. Several blocks on one platform: N_INST instances, each with its window at its own BASE, sharing no
state (00_scope.md R6, 20_memory.md R60, 60_exceptions.md R274; log 12). -/

namespace Sys2Proof.Machine

/-- The instances of a platform, block 0 first; N_INST is their number. -/
structure Platform where
  blocks : List State
  deriving DecidableEq, Repr

/-- The first of `n` instances whose window holds a bus address, from instance `k` on, with the offset into it. -/
def routeFrom (addr : Nat) : Nat → Nat → Option (Nat × BitVec 32)
  | 0, _ => none
  | n + 1, k =>
      if Config.windowBase k ≤ addr ∧ addr < Config.windowBase k + Config.windowBytes then
        some (k, BitVec.ofNat 32 (addr - Config.windowBase k))
      else routeFrom addr n (k + 1)

/-- The instance and offset of a bus address (20_memory.md R60). -/
def Platform.route (p : Platform) (addr : Nat) : Option (Nat × BitVec 32) :=
  routeFrom addr p.blocks.length 0

/-- A bus write to an address: the instance whose window holds it performs `RegWrite`; none where no window does. -/
def Platform.busWrite (p : Platform) (addr : Nat) (w : Word) : Option Platform :=
  (p.route addr).map fun (k, off) => ⟨p.blocks.modify k (regWrite off w)⟩

/-- A bus read of an address: the value, and the platform after the read's effect. -/
def Platform.busRead (p : Platform) (addr : Nat) : Option (Word × Platform) :=
  match p.route addr with
  | some (k, off) =>
      match p.blocks[k]? with
      | some s => some (regReadValue off s, ⟨p.blocks.set k (regReadEffect off s)⟩)
      | none => none
  | none => none

/-- One step of instance `k`; the platform stays as it is if there is no such instance. -/
def Platform.step (p : Platform) (k : Nat) : Host.Outcome Platform Fault Refusal :=
  match p.blocks[k]? with
  | some s =>
      match Machine.step s with
      | .next s' => .next ⟨p.blocks.set k s'⟩
      | .fault r => .fault r
      | .refused r => .refused r
  | none => .next p

end Sys2Proof.Machine
end

