-- ==== Sys2Proof/Safety.lean ====
section
/-! DEFINITION. What a safe run is (60_exceptions.md R278, 70_reset_and_hazards.md R302), and the invariant of the
reachable states (10_state.md R41 and what else the rules keep). -/

namespace Sys2Proof.Machine

/-- No fault of the issuing program has been recorded (60_exceptions.md R278). -/
def State.NoFault (s : State) : Prop := s.marks = []

/-- A run has ended: the script is used up, no command is running or waiting, no fault is recorded
(70_reset_and_hazards.md R302). -/
def State.RunEnded (s : State) : Prop := s.script = [] ∧ s.seq = .idle ∧ s.NoFault

/-- A run of `n` steps is safe: it stops at no fault or refusal, and no program fault is recorded at its end. Marks
are never cleared, so none was recorded on the way. -/
def SafeRun (n : Nat) (s : State) : Prop :=
  ∃ t, Host.Core.run Sys2Proof.core n s = .next t ∧ t.NoFault

/-- What a snapshot with the seeder's answer, or one that waits for it, satisfies: its command is a DRBG_GENERATE
that passed every check before the trigger (42_drbg.md R210, R220). -/
structure PendingGenerate (g : Snapshot) (c : DrbgContext) : Prop where
  command : ∃ f : CmdFlags, f.outv = true ∧ decode g.word = .ok (.drbgGenerate f)
  length : g.len.toNat ≤ Config.maxGenerate
  seeded : c.state = .seeded
  trigger : seedTrigger c = true

/-- The invariant of the block. -/
structure State.Inv (s : State) : Prop where
  /-- I-b (10_state.md R41). -/
  uninitClear : s.ctx.state = .uninit →
    s.ctx.rc = 0 ∧ s.ctx.k = zeroBytes 32 ∧ s.ctx.v = zeroBytes 16
  /-- I-c (R41; 42_drbg.md R226). -/
  seededCount : s.ctx.state = .seeded →
    1 ≤ s.ctx.rc.toNat ∧ s.ctx.rc.toNat ≤ Config.reseedCeiling + 1
  /-- I-d (R41). -/
  noSeeder : s.ctx.seederPresent = false → s.ctx.ri = Config.noSeederInterval
  /-- OUT_AVAIL can show the number of unread bytes (10_state.md R30). -/
  outLength : s.out.length < 2 ^ 32
  /-- RKS is zero without a schedule (10_state.md R36). -/
  noSchedule : s.rksValid = false → s.rks = zeroBytes 240
  /-- RKS is the expansion of some key with one (R36; 40_aes_core.md R134). -/
  schedule : s.rksValid = true → ∃ key, s.rks = keySchedule key
  /-- A running command's copy of RKS is RKS still: only a Complete writes RKS (R36). -/
  running : ∀ g, s.seq = .run g → g.rks = s.rks ∧ g.rksValid = s.rksValid
  /-- A waiting command's copy of RKS is RKS still. -/
  waiting : ∀ g, s.seq = .waitSeed g → g.rks = s.rks ∧ g.rksValid = s.rksValid
  /-- WAIT_SEED holds only a generate that triggered, not yet answered (42_drbg.md R220). -/
  waitingGenerate : ∀ g, s.seq = .waitSeed g → g.seedBytes = none ∧ PendingGenerate g s.ctx
  /-- Seed bytes come only with such a generate (42_drbg.md R221). -/
  answeredGenerate : ∀ g, s.seq = .run g → g.seedBytes ≠ none → PendingGenerate g s.ctx

/-- Two snapshots agree on the operands a command reads, by the table of 30_encoding.md R93 (the flags ADV, OUTV and
SEEDER are the command's own). The waiting generate's answer, SEEDBYTES, belongs to DRBG_GENERATE (42_drbg.md R221). -/
def operandsAgree (i : Instr) (g g' : Snapshot) : Prop :=
  match i with
  | .aesExpand _ => g.keyIn = g'.keyIn
  | .aesCtr _ => g.keyIn = g'.keyIn ∧ g.ctrIn = g'.ctrIn ∧ g.len = g'.len
  | .aesCtrZeroiv _ => g.keyIn = g'.keyIn ∧ g.len = g'.len
  | .aesCtrRks _ => g.rks = g'.rks ∧ g.rksValid = g'.rksValid ∧ g.ctrIn = g'.ctrIn ∧ g.len = g'.len
  | .ctrInc _ => g.ctrIn = g'.ctrIn
  | .rksClear _ => True
  | .drbgSeed _ => g.entIn = g'.entIn ∧ g.adIn = g'.adIn ∧ g.adLen = g'.adLen
  | .drbgReseed _ => g.entIn = g'.entIn ∧ g.adIn = g'.adIn ∧ g.adLen = g'.adLen
  | .drbgGenerate _ => g.len = g'.len ∧ g.seedBytes = g'.seedBytes
  | .drbgConfigSeeder _ => g.riOp = g'.riOp
  | .drbgSeedResponse _ => True
  | .drbgDestroy _ => True

/-- Does a command write RKS and RKS_VALID (30_encoding.md R93)? -/
def writesSchedule : Instr → Bool
  | .aesExpand _ | .rksClear _ => true
  | .aesCtr _ | .aesCtrZeroiv _ | .aesCtrRks _ | .ctrInc _ | .drbgSeed _ | .drbgReseed _ | .drbgGenerate _
  | .drbgConfigSeeder _ | .drbgSeedResponse _ | .drbgDestroy _ => false

/-- Does a command write OUT (30_encoding.md R93)? -/
def writesOut : Instr → Bool
  | .aesCtr _ | .aesCtrZeroiv _ | .aesCtrRks _ | .drbgGenerate _ | .drbgDestroy _ => true
  | .aesExpand _ | .ctrInc _ | .rksClear _ | .drbgSeed _ | .drbgReseed _ | .drbgConfigSeeder _
  | .drbgSeedResponse _ => false

/-- Does a command write CTR_OUT (30_encoding.md R93)? -/
def writesCtrOut : Instr → Bool
  | .aesCtr _ | .aesCtrZeroiv _ | .aesCtrRks _ | .ctrInc _ => true
  | .aesExpand _ | .rksClear _ | .drbgSeed _ | .drbgReseed _ | .drbgGenerate _ | .drbgConfigSeeder _
  | .drbgSeedResponse _ | .drbgDestroy _ => false

/-- Does a command write K, V and RC of the context (30_encoding.md R93)? -/
def writesKeyState : Instr → Bool
  | .drbgSeed _ | .drbgReseed _ | .drbgGenerate _ | .drbgDestroy _ => true
  | .aesExpand _ | .aesCtr _ | .aesCtrZeroiv _ | .aesCtrRks _ | .ctrInc _ | .rksClear _ | .drbgConfigSeeder _
  | .drbgSeedResponse _ => false

/-- Does a command write RI and SEEDER_PRESENT of the context (30_encoding.md R93)? -/
def writesSeederSetting : Instr → Bool
  | .drbgSeed _ | .drbgConfigSeeder _ | .drbgDestroy _ => true
  | .aesExpand _ | .aesCtr _ | .aesCtrZeroiv _ | .aesCtrRks _ | .ctrInc _ | .rksClear _ | .drbgReseed _
  | .drbgGenerate _ | .drbgSeedResponse _ => false

/-- Does a command write CTX_STATE (30_encoding.md R93)? -/
def writesCtxState : Instr → Bool
  | .drbgSeed _ | .drbgDestroy _ => true
  | .aesExpand _ | .aesCtr _ | .aesCtrZeroiv _ | .aesCtrRks _ | .ctrInc _ | .rksClear _ | .drbgReseed _
  | .drbgGenerate _ | .drbgConfigSeeder _ | .drbgSeedResponse _ => false

/-- The engine moves next: a command is in RUN, and the host has no operation left or the schedule does not give the
move to it (log 1). -/
def State.EngineTurn (s : State) : Prop :=
  (∃ g, s.seq = .run g) ∧ (s.script = [] ∨ s.schedule.head? ≠ some .host)

/-- The host moves next, with operation `op` and the script `rest` after it (log 1). -/
def State.HostTurn (s : State) (op : HostOp) (rest : List HostOp) : Prop :=
  s.script = op :: rest ∧ ((∃ g, s.seq = .run g) → s.schedule.head? = some .host)

/-- The host has the next `n` moves, if it has operations left: no command is in RUN, or the schedule gives them to the
host (log 1). -/
def State.HostMoves (n : Nat) (s : State) : Prop :=
  (∃ g, s.seq = .run g) → s.schedule.take n = List.replicate n .host

end Sys2Proof.Machine
end

