-- ==== Sys2Proof/Certificates/Slice0/Obligations.lean ====
section
/-! DEFINITION. The statements for the provers. Each docstring names the rule of spec/ a statement formalises. -/

open Sys2Proof Sys2Proof.Machine

/-- 30_encoding.md R90, R91, R94: every command's word decodes to it, and a word that decodes to a command is that
command's word, all 32 bits of it. -/
def Obligations.DecodeEncodeAgree : Prop :=
  (∀ i : Instr, i.wf = true → decode (encode i) = .ok i) ∧
  ∀ (w : Word) (i : Instr), decode w = .ok i → i.wf = true ∧ encode i = w

/-- 30_encoding.md R99, for every 32-bit word: reserved bits first, then the opcode list, then the flags. -/
def Obligations.DecodeIsTotalByTheRule : Prop :=
  ∀ w : Word,
    (w.extractLsb' 11 21 ≠ 0 → ∃ e, decode w = .error e) ∧
    (w.extractLsb' 11 21 = 0 →
      (w.extractLsb' 0 8).toNat ∈
        [0x01, 0x02, 0x03, 0x04, 0x05, 0x06, 0x10, 0x11, 0x12, 0x13, 0x14, 0x15] →
      ∃ i, decode w = .ok i ∧ i.opcode = w.extractLsb' 0 8 ∧
        i.flags = ⟨w.getLsbD 8, w.getLsbD 9, w.getLsbD 10⟩) ∧
    (w.extractLsb' 11 21 = 0 →
      (w.extractLsb' 0 8).toNat ∉
        [0x01, 0x02, 0x03, 0x04, 0x05, 0x06, 0x10, 0x11, 0x12, 0x13, 0x14, 0x15] →
      ∃ e, decode w = .error e)

/-- 30_encoding.md R94, 90_conflicts.md C16: a word is a command exactly when it matches one row of the opcode map
under the mask, and it never matches two. -/
def Obligations.OpcodeRowsSelectOneCommand : Prop :=
  ∀ w : Word,
    (matchingRows w).length ≤ 1 ∧
    ((∃ i, decode w = .ok i) ↔ (matchingRows w).length = 1)

/-- Words of 95_test_vectors.md V4.1, written out from the encoding, decode to what they stand for. -/
def Obligations.WordsOfTheSpecDecode : Prop :=
  decode 0b00000000000000000000000000000001 = .ok (.aesExpand ⟨false, false, false⟩) ∧
  decode 0b00000000000000000000011100000010 = .ok (.aesCtr ⟨true, true, true⟩) ∧
  decode 0b00000000000000000000000100010000 = .ok (.drbgSeed ⟨true, false, false⟩) ∧
  decode 0b00000000000000000000001000010010 = .ok (.drbgGenerate ⟨false, true, false⟩) ∧
  decode 0b00000000000000000000010000010011 = .ok (.drbgConfigSeeder ⟨false, false, true⟩) ∧
  decode 0x00000812 = .error .reservedBitsSet ∧
  decode 0x00000016 = .error .unknownOpcode

/-- 10_state.md R38, 30_encoding.md R95: when it is the engine's move and the snapshot's word decodes to a command,
the step is that command's meaning, one entry of the schedule used up (the model's own, log 1); and so it is for a
word laid by `withFetchWord`. -/
def Obligations.StepRunsTheDecodedCommand : Prop :=
  (∀ (s : State) (g : Snapshot) (i : Instr), s.seq = .run g → s.EngineTurn → decode g.word = .ok i →
    step s = exec i { s with schedule := s.schedule.tail }) ∧
  ∀ (s : State) (nbits w : Nat) (i : Instr), decodeTableWord nbits w = some i →
    ∃ t, step (s.withFetchWord nbits w) = exec i t ∧
      t = { s with
        seq := .run (snapshot (BitVec.ofNat 32 (w % 2 ^ nbits)) s), ovr := false,
        schedule := if s.script = [] then s.schedule.tail else s.schedule }

/-- 30_encoding.md R96, first part: an illegal word completes with ILLEGAL_CMD and nothing else of the block changes.
That the program's fault is recorded is 60_exceptions.md R278. -/
def Obligations.IllegalWordCompletesWithIllegalCmd : Prop :=
  ∀ (s : State) (g : Snapshot), s.seq = .run g → s.EngineTurn →
    (g.word.extractLsb' 11 21 ≠ 0 ∨
      (g.word.extractLsb' 0 8).toNat ∉
        [0x01, 0x02, 0x03, 0x04, 0x05, 0x06, 0x10, 0x11, 0x12, 0x13, 0x14, 0x15]) →
    step s = .next { s with
      seq := .idle, err := .illegalCmd, marks := s.marks ++ [.illegalCmd], schedule := s.schedule.tail }

/-- 30_encoding.md R95: what a CMD write does in each SEQ. The recorded mark of a rejected write is the model's ghost
of 60_exceptions.md R278. -/
def Obligations.CmdWriteIsAcceptedOrRejected : Prop :=
  ∀ (s : State) (w : Word),
    (s.seq = .idle → regWrite 0x008 w s = { s with seq := .run (snapshot w s), ovr := false }) ∧
    (∀ g, s.seq = .waitSeed g → w.extractLsb' 0 8 = 0x14 ∧ w.extractLsb' 11 21 = 0 →
      regWrite 0x008 w s = { s with seq := .run { g with seedBytes := some s.entIn }, ovr := false }) ∧
    (∀ g, s.seq = .waitSeed g → ¬ (w.extractLsb' 0 8 = 0x14 ∧ w.extractLsb' 11 21 = 0) →
      regWrite 0x008 w s = { s with ovr := true, marks := s.marks ++ [.overrun] }) ∧
    (∀ g, s.seq = .run g →
      regWrite 0x008 w s = { s with ovr := true, marks := s.marks ++ [.overrun] })

/-- 10_state.md R38: from IDLE, a CMD write and then the engine's step perform the command on the operands as they
stood at the write. -/
def Obligations.CommandRunsInTwoSteps : Prop :=
  ∀ (s : State) (w : Word) (i : Instr), s.seq = .idle → s.script = [.write 0x008 w] → decode w = .ok i →
    Host.Core.run Sys2Proof.core 2 s =
      exec i { s with
        seq := .run (snapshot w s), ovr := false, script := [], schedule := s.schedule.tail.tail }

/-- 10_state.md R41 (I-b, I-c, I-d) and the rest of `State.Inv`: every step keeps the invariant. -/
def Obligations.InvariantKeptByEveryStep : Prop :=
  ∀ s s' : State, s.Inv → step s = .next s' → s'.Inv

/-- 70_reset_and_hazards.md R291: the reset state satisfies the invariant. -/
def Obligations.InvariantAfterReset : Prop := State.reset.Inv

/-- 60_exceptions.md R278, 20_memory.md R65: a step stops only where the engine is stuck in WAIT_SEED, or at a
transfer narrower than a word; and there it does. -/
def Obligations.StepStopsOnlyWhereTheSpecSays : Prop :=
  ∀ s : State,
    (∀ f, step s = .fault f ↔
      f = .seedNeverAnswered ∧ (∃ g, s.seq = .waitSeed g) ∧
        (s.script = [] ∨ ∃ rest, s.script = .waitIdle :: rest)) ∧
    (∀ r, step s = .refused r ↔
      r = .narrowTransfer ∧ ∃ size off rest, s.HostTurn (.narrow size off) rest)

/-- 10_state.md R44: the state after reset, register by register; no command is running then, and the block takes the
word of a CMD write. -/
def Obligations.ResetLeavesTheTable : Prop :=
  let s := State.reset
  s.seq = .idle ∧ regReadValue 0x004 s = 0x00000000 ∧ regReadValue 0x000 s = 0x00000003 ∧
  s.len = 0 ∧ s.adLen = 0 ∧ s.riLo = 0 ∧ s.riHi = 0 ∧ s.out = [] ∧ regReadValue 0x01C s = 0 ∧
  (∀ i, byteAt s.keyIn i = 0) ∧ (∀ i, byteAt s.ctrIn i = 0) ∧ (∀ i, byteAt s.ctrOut i = 0) ∧
  (∀ i, byteAt s.entIn i = 0) ∧ (∀ i, byteAt s.adIn i = 0) ∧
  (∀ i, byteAt s.rks i = 0) ∧ s.rksValid = false ∧
  s.ctx.state = .uninit ∧ (∀ i, byteAt s.ctx.k i = 0) ∧ (∀ i, byteAt s.ctx.v i = 0) ∧
  s.ctx.rc = 0 ∧ s.ctx.ri.toNat = 2 ^ 48 ∧ s.ctx.seederPresent = false ∧
  (∀ g, s.seq ≠ .run g) ∧ ∀ w, regWrite 0x008 w s = { s with seq := .run (snapshot w s) }

/-- 70_reset_and_hazards.md R290: reset from any state gives every piece of the block its value of R44 and abandons a
running or waiting command. That the host's script, its notes and the recorded marks go on is the model's choice
(log 9). -/
def Obligations.HardwareResetFromAnyState : Prop :=
  ∀ (s : State) (rest : List HostOp), s.HostTurn .reset rest →
    step s = .next { State.reset with
      script := rest, notes := s.notes, schedule := s.schedule.tail, marks := s.marks }

/-- 10_state.md R39, and the fields of R25: what STATUS reads in every state. -/
def Obligations.StatusFieldsReadTheState : Prop :=
  ∀ s : State,
    let w := regReadValue 0x004 s
    (w.getLsbD 0 = true ↔ s.seq ≠ .idle) ∧
    (w.getLsbD 1 = true ↔ ∃ g, s.seq = .waitSeed g) ∧
    w.getLsbD 2 = s.ovr ∧
    w.getLsbD 3 = s.rksValid ∧
    (w.extractLsb' 4 4).toNat =
      (match s.err with | .ok => 0 | .badLength => 1 | .needReseed => 2 | .illegalCmd => 3 | .notReady => 4) ∧
    (s.ctx.state = .uninit → w.extractLsb' 8 2 = 0) ∧
    (s.ctx.state = .seeded → s.ctx.rc.toNat > 2 ^ 48 → w.extractLsb' 8 2 = 2) ∧
    (s.ctx.state = .seeded → ¬ s.ctx.rc.toNat > 2 ^ 48 → w.extractLsb' 8 2 = 1) ∧
    w.extractLsb' 8 2 ≠ 3 ∧
    w.getLsbD 10 = s.ctx.seederPresent ∧
    w.extractLsb' 11 21 = 0

/-- 10_state.md R22, 20_memory.md R62, R68, R69: a word written to an operand register reads back, whichever of the
40 writable words it is. The offsets are those of R22. -/
def Obligations.OperandWordReadsBack : Prop :=
  ∀ (off : BitVec 32) (v : Word) (s : State),
    (let o := 4 * (off.extractLsb' 2 10).toNat
     (0x00C ≤ o ∧ o ≤ 0x018) ∨ (0x040 ≤ o ∧ o ≤ 0x06C) ∨ (0x080 ≤ o ∧ o ≤ 0x0DC)) →
    regReadValue off (regWrite off v s) = v

/-- 20_memory.md R66, R69: a write to any word but CMD changes no other word of the window. -/
def Obligations.WriteLeavesOtherWordsAlone : Prop :=
  ∀ (off off' : BitVec 32) (v : Word) (s : State),
    off.extractLsb' 2 10 ≠ off'.extractLsb' 2 10 → off.extractLsb' 2 10 ≠ 2 →
    regReadValue off' (regWrite off v s) = regReadValue off' s

/-- 20_memory.md R68: a CMD write, accepted or rejected, shows in no register but STATUS. -/
def Obligations.CmdWriteShowsOnlyInStatus : Prop :=
  ∀ (off : BitVec 32) (w : Word) (s : State), off.extractLsb' 2 10 ≠ 1 →
    regReadValue off (regWrite 0x008 w s) = regReadValue off s

/-- 10_state.md R23: reserved offsets read 0 and ignore writes, RO registers ignore writes, CMD reads 0. -/
def Obligations.ReservedAndReadOnlyOffsets : Prop :=
  ∀ (off : BitVec 32) (v : Word) (s : State),
    let o := 4 * (off.extractLsb' 2 10).toNat
    ((0x034 ≤ o ∧ o ≤ 0x03C) ∨ (0x0E0 ≤ o ∧ o ≤ 0x0FC) ∨ (0x1F0 ≤ o ∧ o ≤ 0x1FC) ∨ 0x230 ≤ o →
      regReadValue off s = 0 ∧ regReadEffect off s = s ∧ regWrite off v s = s) ∧
    (o = 0x000 ∨ o = 0x004 ∨ (0x01C ≤ o ∧ o ≤ 0x030) ∨ (0x070 ≤ o ∧ o ≤ 0x07C) ∨
        (0x100 ≤ o ∧ o ≤ 0x1EC) ∨ (0x200 ≤ o ∧ o ≤ 0x22C) → regWrite off v s = s) ∧
    (o = 0x008 → regReadValue off s = 0 ∧ regReadEffect off s = s)

/-- 20_memory.md R61, R67: only a read of OUT_DATA changes the block, it pops up to four bytes, the first the most
significant, and bits above 11 and below 2 of an offset play no part. -/
def Obligations.OnlyOutDataReadsHaveAnEffect : Prop :=
  ∀ (off : BitVec 32) (s : State),
    (off.extractLsb' 2 10 ≠ 8 → regReadEffect off s = s) ∧
    (off.extractLsb' 2 10 = 8 →
      (∀ j, j < 4 → (regReadValue off s).extractLsb' (24 - 8 * j) 8 = s.out.getD j 0) ∧
      regReadEffect off s = { s with out := s.out.drop (min 4 s.out.length) })

/-- 30_encoding.md R101 (READOUT), 20_memory.md R67: ceil(n/4) reads of OUT_DATA return the n bytes of OUT, in order,
and empty it, at any SEQ; in RUN, when no Complete falls between the reads. -/
def Obligations.ReadoutReturnsTheOutput : Prop :=
  ∀ s : State, s.HostMoves ((s.out.length + 3) / 4) → s.script = (ScriptLine.readout s.out.length).expand →
    ∃ words : List Word,
      Host.Core.run Sys2Proof.core ((s.out.length + 3) / 4) s =
        .next { s with
          script := [], out := [], notes := s.notes ++ words,
          schedule := s.schedule.drop ((s.out.length + 3) / 4) } ∧
      (words.flatMap fun w => [w.extractLsb' 24 8, w.extractLsb' 16 8, w.extractLsb' 8 8, w.extractLsb' 0 8]).take
        s.out.length = s.out

/-- 30_encoding.md R101 (LOADB), 20_memory.md R69, 70_reset_and_hazards.md R294: performing the line's writes leaves the
bytes in the buffer and its other bytes as they were, at any SEQ: in IDLE, in WAIT_SEED, and in RUN, when no Complete
falls between the writes. -/
def Obligations.LoadbFillsTheBuffer : Prop :=
  ∀ (bytes : List Byte) (s : State), bytes.length % 4 = 0 →
    (bytes.length ≤ 32 → s.script = (ScriptLine.loadb .keyIn bytes).expand → s.HostMoves (bytes.length / 4) →
      ∃ b : Bytes 32, Host.Core.run Sys2Proof.core (bytes.length / 4) s =
        .next { s with script := [], keyIn := b, schedule := s.schedule.drop (bytes.length / 4) } ∧
        b.toList = bytes ++ s.keyIn.toList.drop bytes.length) ∧
    (bytes.length ≤ 16 → s.script = (ScriptLine.loadb .ctrIn bytes).expand → s.HostMoves (bytes.length / 4) →
      ∃ b : Bytes 16, Host.Core.run Sys2Proof.core (bytes.length / 4) s =
        .next { s with script := [], ctrIn := b, schedule := s.schedule.drop (bytes.length / 4) } ∧
        b.toList = bytes ++ s.ctrIn.toList.drop bytes.length) ∧
    (bytes.length ≤ 48 → s.script = (ScriptLine.loadb .entIn bytes).expand → s.HostMoves (bytes.length / 4) →
      ∃ b : Bytes 48, Host.Core.run Sys2Proof.core (bytes.length / 4) s =
        .next { s with script := [], entIn := b, schedule := s.schedule.drop (bytes.length / 4) } ∧
        b.toList = bytes ++ s.entIn.toList.drop bytes.length) ∧
    (bytes.length ≤ 48 → s.script = (ScriptLine.loadb .adIn bytes).expand → s.HostMoves (bytes.length / 4) →
      ∃ b : Bytes 48, Host.Core.run Sys2Proof.core (bytes.length / 4) s =
        .next { s with script := [], adIn := b, schedule := s.schedule.drop (bytes.length / 4) } ∧
        b.toList = bytes ++ s.adIn.toList.drop bytes.length)

/-- 20_memory.md R62: the words of CTR_IN, CTR_OUT and DRBG_V read as the digits of the counter's big-endian value. -/
def Obligations.CounterWordsAreBigEndianDigits : Prop :=
  ∀ s : State,
    beNat s.ctrIn = (regReadValue 0x060 s).toNat * 2 ^ 96 + (regReadValue 0x064 s).toNat * 2 ^ 64
      + (regReadValue 0x068 s).toNat * 2 ^ 32 + (regReadValue 0x06C s).toNat ∧
    beNat s.ctrOut = (regReadValue 0x070 s).toNat * 2 ^ 96 + (regReadValue 0x074 s).toNat * 2 ^ 64
      + (regReadValue 0x078 s).toNat * 2 ^ 32 + (regReadValue 0x07C s).toNat ∧
    beNat s.ctx.v = (regReadValue 0x220 s).toNat * 2 ^ 96 + (regReadValue 0x224 s).toNat * 2 ^ 64
      + (regReadValue 0x228 s).toNat * 2 ^ 32 + (regReadValue 0x22C s).toNat

/-- 40_aes_core.md R122: at every byte the S-box table is the affine map of the inverse in GF(2^8), 0 taken as the
inverse of 0. -/
def Obligations.SboxIsInverseThenAffine : Prop :=
  (∀ a : Byte, ∃ b : Byte, (if a = 0 then b = 0 else gmul a b = 1) ∧
    sbox a = b ^^^ b.rotateLeft 1 ^^^ b.rotateLeft 2 ^^^ b.rotateLeft 3 ^^^ b.rotateLeft 4 ^^^ 0x63) ∧
  sbox 0x00 = 0x63 ∧ sbox 0x53 = 0xED ∧ sbox 0xFF = 0x16

/-- 40_aes_core.md R125: row r of the state rotates left by r, the example permutation, and SubBytes and ShiftRows
commute. -/
def Obligations.ShiftRowsRotatesRows : Prop :=
  (∀ (s : Bytes 16) (r c : Nat), r < 4 → c < 4 →
    byteAt (shiftRows s) (r + 4 * c) = byteAt s (r + 4 * ((c + r) % 4))) ∧
  shiftRows (beBytes 16 0x000102030405060708090a0b0c0d0e0f) = beBytes 16 0x00050a0f04090e03080d02070c01060b ∧
  ∀ s : Bytes 16, subBytes (shiftRows s) = shiftRows (subBytes s)

/-- 40_aes_core.md R134, with the recurrence of R130 and the layout of R133: AES_EXPAND (word 0x00000001) completes,
its RKS holds the key in words 0 to 7 and every later word by the recurrence, and nothing else changes but SEQ, ERR
and RKS_VALID. -/
def Obligations.AesExpandCompletes : Prop :=
  decode 0x00000001 = .ok (.aesExpand ⟨false, false, false⟩) ∧
  ∀ (f : CmdFlags) (s : State) (g : Snapshot), s.seq = .run g →
    ∃ rks : Bytes 240,
      exec (.aesExpand f) s = .next { s with seq := .idle, err := .ok, rks := rks, rksValid := true } ∧
      let W := fun i => sliceBytes rks (4 * i) 4
      (∀ i, i < 8 → W i = sliceBytes g.keyIn (4 * i) 4) ∧
      (∀ i, 8 ≤ i → i < 60 → i % 8 = 0 →
        W i = xorBytes (W (i - 8)) (xorBytes (subWord (rotWord (W (i - 1)))) (rconWord (i / 8)))) ∧
      (∀ i, 8 ≤ i → i < 60 → i % 8 = 4 → W i = xorBytes (W (i - 8)) (subWord (W (i - 1)))) ∧
      (∀ i, 8 ≤ i → i < 60 → i % 8 ≠ 0 → i % 8 ≠ 4 → W i = xorBytes (W (i - 8)) (W (i - 1)))

/-- 40_aes_core.md R135: RKS_CLEAR (word 0x00000006) completes whether or not there is a schedule, every word of RKS
reads 0 and STATUS[3] is 0 afterwards, and nothing else changes but SEQ and ERR. -/
def Obligations.RksClearCompletes : Prop :=
  decode 0x00000006 = .ok (.rksClear ⟨false, false, false⟩) ∧
  ∀ (f : CmdFlags) (s : State) (g : Snapshot), s.seq = .run g →
    ∃ t, exec (.rksClear f) s = .next t ∧
      t = { s with seq := .idle, err := .ok, rks := zeroBytes 240, rksValid := false } ∧
      (regReadValue 0x004 t).getLsbD 3 = false ∧
      ∀ off : BitVec 32, 0x100 ≤ 4 * (off.extractLsb' 2 10).toNat → 4 * (off.extractLsb' 2 10).toNat ≤ 0x1EC →
        regReadValue off t = 0

/-- 41_ctr_engine.md R160: the ripple increment is the big-endian successor modulo 2^128, with a silent wrap. -/
def Obligations.IncrementIsBigEndianSuccessor : Prop :=
  (∀ c : Bytes 16, inc128 c = beBytes 16 ((beNat c + 1) % 2 ^ 128)) ∧
  (∀ c : Bytes 16, beNat (inc128 c) = (beNat c + 1) % 2 ^ 128) ∧
  inc128 (beBytes 16 0) = beBytes 16 1 ∧ inc128 (beBytes 16 0xff) = beBytes 16 0x100 ∧
  inc128 (beBytes 16 (2 ^ 128 - 1)) = beBytes 16 0 ∧ inc128 (beBytes 16 (2 ^ 127 - 1)) = beBytes 16 (2 ^ 127)

/-- 41_ctr_engine.md R161: Add128 is Inc128 applied n times. -/
def Obligations.AddIsIteratedIncrement : Prop :=
  (∀ (c : Bytes 16) (n : Nat), add128 c n = beBytes 16 ((beNat c + n) % 2 ^ 128)) ∧
  (∀ (c : Bytes 16) (n : Nat), add128 c n = inc128^[n] c) ∧
  ∀ c : Bytes 16, add128 c 0 = c

/-- 41_ctr_engine.md R163: the keystream has L bytes, and byte j is byte j mod 16 of the encryption of the counter
j div 16 steps on; the counter after it is nblocks(L) steps on, a partial block counting as one. -/
def Obligations.KeystreamEncryptsSuccessiveCounters : Prop :=
  ∀ (rk : Schedule) (c : Bytes 16) (l : Nat),
    (keystream rk c l).length = l ∧
    (∀ j, j < l → (keystream rk c l)[j]? = some (byteAt (aesEncrypt rk (add128 c (j / 16))) (j % 16))) ∧
    counterAfter c l = add128 c (l / 16 + if l % 16 = 0 then 0 else 1) ∧
    keystream rk c 0 = [] ∧ counterAfter c 0 = c

/-- 41_ctr_engine.md R167: the 4-lane engine, the scalar path and the reference keystream agree for every schedule,
counter and length. -/
def Obligations.ParallelAndScalarPathsAgree : Prop :=
  ∀ (rk : Schedule) (c : Bytes 16) (l : Nat),
    engineKeystream rk c l = keystreamScalar rk c l ∧
    keystreamScalar rk c l = (keystream rk c l, counterAfter c l)

/-- 41_ctr_engine.md R174: a shorter keystream is the start of a longer one, and a request split at a multiple of 16
bytes continues from the counter after the first part; split elsewhere, the bytes from L1 to the end of L1's last
block are lost. -/
def Obligations.KeystreamSplitsAtWholeBlocks : Prop :=
  ∀ (rk : Schedule) (c : Bytes 16) (l1 l : Nat), l1 ≤ l →
    keystream rk c l1 = (keystream rk c l).take l1 ∧
    (l1 % 16 = 0 → keystream rk c l = keystream rk c l1 ++ keystream rk (counterAfter c l1) (l - l1)) ∧
    ∀ n, keystream rk (counterAfter c l1) n = (keystream rk c (16 * nblocks l1 + n)).drop (16 * nblocks l1)

/-- 41_ctr_engine.md R169: AES_CTR (word 0x00000002) completes for every LEN with the reference keystream of R163 in
OUT and the counter after it in CTR_OUT; nothing else changes but SEQ and ERR. -/
def Obligations.AesCtrCompletes : Prop :=
  decode 0x00000002 = .ok (.aesCtr ⟨false, false, false⟩) ∧
  ∀ (f : CmdFlags) (s : State) (g : Snapshot), s.seq = .run g →
    exec (.aesCtr f) s = .next { s with
      seq := .idle, err := .ok,
      out := keystream (keySchedule g.keyIn) g.ctrIn g.len.toNat,
      ctrOut := add128 g.ctrIn (nblocks g.len.toNat) }

/-- 41_ctr_engine.md R170: AES_CTR_ZEROIV (word 0x00000003) completes as AES_CTR from the counter 0^16, whatever
CTR_IN holds, and CTR_OUT is the number of blocks. -/
def Obligations.AesCtrZeroivCompletes : Prop :=
  decode 0x00000003 = .ok (.aesCtrZeroiv ⟨false, false, false⟩) ∧
  ∀ (f : CmdFlags) (s : State) (g : Snapshot), s.seq = .run g →
    exec (.aesCtrZeroiv f) s = .next { s with
      seq := .idle, err := .ok,
      out := keystream (keySchedule g.keyIn) (zeroBytes 16) g.len.toNat,
      ctrOut := beBytes 16 (nblocks g.len.toNat) }

/-- 41_ctr_engine.md R171: AES_CTR_RKS completes with the keystream of the stored schedule, or with NOT_READY and no
other change of the block; the recorded mark is 60_exceptions.md R278's. -/
def Obligations.AesCtrRksCompletes : Prop :=
  ∀ (f : CmdFlags) (s : State) (g : Snapshot), s.seq = .run g →
    (g.rksValid = true → exec (.aesCtrRks f) s = .next { s with
      seq := .idle, err := .ok,
      out := keystream g.rks g.ctrIn g.len.toNat,
      ctrOut := add128 g.ctrIn (nblocks g.len.toNat) }) ∧
    (g.rksValid = false → exec (.aesCtrRks f) s = .next { s with
      seq := .idle, err := .notReady, marks := s.marks ++ [.notReady] })

/-- 41_ctr_engine.md R171, corner case: after AES_EXPAND of a key, AES_CTR_RKS gives what AES_CTR gives under that
key, whatever KEY_IN has become since. -/
def Obligations.StoredScheduleGivesTheKeysStream : Prop :=
  ∀ (f f' f'' : CmdFlags) (s t u : State) (g : Snapshot) (key : Bytes 32) (w w' : Word), s.seq = .run g →
    exec (.aesExpand f) s = .next t →
    exec (.aesCtrRks f') (acceptCommand w { t with keyIn := key }) = .next u →
    ∃ v, exec (.aesCtr f'') (acceptCommand w' { t with keyIn := g.keyIn }) = .next v ∧
      v.out = u.out ∧ v.ctrOut = u.ctrOut ∧ u.err = .ok

/-- 41_ctr_engine.md R172: CTR_INC (word 0x00000005) completes with the successor of CTR_IN in CTR_OUT, nothing else
changed but SEQ and ERR. -/
def Obligations.CtrIncCompletes : Prop :=
  decode 0x00000005 = .ok (.ctrInc ⟨false, false, false⟩) ∧
  ∀ (f : CmdFlags) (s : State) (g : Snapshot), s.seq = .run g →
    exec (.ctrInc f) s = .next { s with
      seq := .idle, err := .ok, ctrOut := beBytes 16 ((beNat g.ctrIn + 1) % 2 ^ 128) }

/-- 42_drbg.md R202: the mask's 48 bytes are the encryptions of 1, 2 and 3 under the zero key, and one update of the
all-zero state with no mixing material gives the mask. -/
def Obligations.MaskIsTheZeroStateUpdate : Prop :=
  seedMask = threeBlocks (aesEncrypt (keySchedule (zeroBytes 32)) (beBytes 16 1))
    (aesEncrypt (keySchedule (zeroBytes 32)) (beBytes 16 2))
    (aesEncrypt (keySchedule (zeroBytes 32)) (beBytes 16 3)) ∧
  drbgUpdate (zeroBytes 32) (zeroBytes 16) (zeroBytes 48) = (keyPart seedMask, ctrPart seedMask)

/-- 42_drbg.md R206: an update from the zero state XORs the mask in once; XORing it in twice would cancel it. -/
def Obligations.UpdateFromZeroAppliesTheMaskOnce : Prop :=
  ∀ m : Bytes 48,
    drbgUpdate (zeroBytes 32) (zeroBytes 16) m = (keyPart (xorBytes m seedMask), ctrPart (xorBytes m seedMask)) ∧
    xorBytes (xorBytes m seedMask) seedMask = m

/-- 42_drbg.md R201: the update's three blocks are 48 bytes of keystream from the counter one step on, XORed with the
mixing material and split 32 + 16. -/
def Obligations.UpdateIsKeystreamXorMaterial : Prop :=
  ∀ (k : Bytes 32) (v : Bytes 16) (p : Bytes 48),
    let t := drbgUpdate k v p
    t.1.toList ++ t.2.toList =
      List.zipWith (· ^^^ ·) (keystream (keySchedule k) (inc128 v) 48) p.toList

/-- 42_drbg.md R203, 93_implementation_defined.md U15: seed material byte by byte, and the bytes of AD_IN from ADLEN
on have no effect. -/
def Obligations.SeedMaterialXorsTheFirstBytes : Prop :=
  ∀ (e a : Bytes 48) (n : Nat), n ≤ 48 →
    (∀ i, i < n → byteAt (seedMaterial e a n) i = byteAt e i ^^^ byteAt a i) ∧
    (∀ i, n ≤ i → i < 48 → byteAt (seedMaterial e a n) i = byteAt e i) ∧
    (∀ a' : Bytes 48, (∀ i, i < n → byteAt a' i = byteAt a i) → seedMaterial e a' n = seedMaterial e a n) ∧
    seedMaterial e a 0 = e

/-- 42_drbg.md R205, R204, with the seed computed as the update pass of R206: DRBG_SEED completes in every CTX_STATE,
or with BAD_LENGTH and nothing changed. -/
def Obligations.DrbgSeedCompletes : Prop :=
  ∀ (f : CmdFlags) (s : State) (g : Snapshot), s.seq = .run g →
    (g.adLen.toNat ≤ 48 → (g.adLen = 0 ∨ f.adv = true) →
      let kv := drbgUpdate (zeroBytes 32) (zeroBytes 16) (seedMaterial g.entIn g.adIn g.adLen.toNat)
      exec (.drbgSeed f) s = .next { s with
        seq := .idle, err := .ok,
        ctx := { state := .seeded, k := kv.1, v := kv.2, rc := 1,
                 ri := BitVec.ofNat 64 (2 ^ 48), seederPresent := false } }) ∧
    (g.adLen.toNat > 48 ∨ (g.adLen ≠ 0 ∧ f.adv = false) →
      exec (.drbgSeed f) s = .next { s with seq := .idle, err := .badLength })

/-- 42_drbg.md R207, R204: DRBG_RESEED completes with RC = 1 and the prediction-resistance setting kept; NOT_READY
before any seed comes first, then BAD_LENGTH. The mark is 60_exceptions.md R278's. -/
def Obligations.DrbgReseedCompletes : Prop :=
  ∀ (f : CmdFlags) (s : State) (g : Snapshot), s.seq = .run g →
    (s.ctx.state = .seeded → g.adLen.toNat ≤ 48 → (g.adLen = 0 ∨ f.adv = true) →
      let kv := drbgUpdate s.ctx.k s.ctx.v (seedMaterial g.entIn g.adIn g.adLen.toNat)
      exec (.drbgReseed f) s = .next { s with
        seq := .idle, err := .ok, ctx := { s.ctx with k := kv.1, v := kv.2, rc := 1 } }) ∧
    (s.ctx.state = .uninit → exec (.drbgReseed f) s = .next { s with
      seq := .idle, err := .notReady, marks := s.marks ++ [.notReady] }) ∧
    (s.ctx.state = .seeded → g.adLen.toNat > 48 ∨ (g.adLen ≠ 0 ∧ f.adv = false) →
      exec (.drbgReseed f) s = .next { s with seq := .idle, err := .badLength })

/-- 42_drbg.md R210, R214 to R217: a generate that passes its checks completes; OUT has LEN bytes, byte j being byte j
mod 16 of the encryption of the counter V + 1 + j div 16 under the old key; K and V are the update of the old key and
the last counter used with no mixing material; RC goes up by 1; nothing else changes but SEQ and ERR. -/
def Obligations.DrbgGenerateCompletes : Prop :=
  ∀ (f : CmdFlags) (s : State) (g : Snapshot), s.seq = .run g → g.seedBytes = none →
    s.ctx.state = .seeded → g.len.toNat ≤ 65535 → f.outv = true →
    ¬ (s.ctx.seederPresent = true ∧ s.ctx.rc.toNat > s.ctx.ri.toNat) → s.ctx.rc.toNat ≤ 2 ^ 48 →
    ∃ (out : List Byte) (rc : BitVec 64),
      exec (.drbgGenerate f) s = .next { s with
        seq := .idle, err := .ok, out := out,
        ctx := { s.ctx with
          k := (drbgUpdate s.ctx.k (add128 s.ctx.v (nblocks g.len.toNat)) (zeroBytes 48)).1,
          v := (drbgUpdate s.ctx.k (add128 s.ctx.v (nblocks g.len.toNat)) (zeroBytes 48)).2,
          rc := rc } } ∧
      rc.toNat = s.ctx.rc.toNat + 1 ∧
      out.length = g.len.toNat ∧
      ∀ j, j < g.len.toNat →
        out[j]? = some (byteAt (aesEncrypt (keySchedule s.ctx.k) (add128 s.ctx.v (1 + j / 16))) (j % 16))

/-- 60_exceptions.md R264 and 42_drbg.md R211 to R213, R220: the checks of a generate, in their order, and what each
leaves: NOT_READY, BAD_LENGTH, the seed request with nothing committed, NEED_RESEED. -/
def Obligations.GenerateChecksInOrder : Prop :=
  ∀ (f : CmdFlags) (s : State) (g : Snapshot), s.seq = .run g → g.seedBytes = none →
    (s.ctx.state = .uninit → exec (.drbgGenerate f) s = .next { s with
      seq := .idle, err := .notReady, marks := s.marks ++ [.notReady] }) ∧
    (s.ctx.state = .seeded → (g.len.toNat > 65535 ∨ f.outv = false) →
      exec (.drbgGenerate f) s = .next { s with seq := .idle, err := .badLength }) ∧
    (s.ctx.state = .seeded → g.len.toNat ≤ 65535 → f.outv = true →
      s.ctx.seederPresent = true → s.ctx.rc.toNat > s.ctx.ri.toNat →
      exec (.drbgGenerate f) s = .next { s with seq := .waitSeed g } ∧
      (regReadValue 0x004 { s with seq := .waitSeed g }).extractLsb' 0 2 = 3) ∧
    (s.ctx.state = .seeded → g.len.toNat ≤ 65535 → f.outv = true →
      ¬ (s.ctx.seederPresent = true ∧ s.ctx.rc.toNat > s.ctx.ri.toNat) → s.ctx.rc.toNat > 2 ^ 48 →
      exec (.drbgGenerate f) s = .next { s with seq := .idle, err := .needReseed })

/-- 42_drbg.md R221: DRBG_SEED_RESPONSE is accepted for the waiting generate with ENT_IN as its seed bytes, commits
nothing, and clears SEED_REQ and OVR; accepted in IDLE it completes with ILLEGAL_CMD. The mark is R278's. -/
def Obligations.SeedResponseReturnsTheGenerateToRun : Prop :=
  ∀ (f : CmdFlags) (s : State) (g : Snapshot),
    (s.seq = .waitSeed g → ∃ t, exec (.drbgSeedResponse f) s = .next t ∧
      t = { s with seq := .run { g with seedBytes := some s.entIn }, ovr := false } ∧
      (regReadValue 0x004 t).extractLsb' 0 3 = 1) ∧
    (s.seq = .run g → exec (.drbgSeedResponse f) s = .next { s with
      seq := .idle, err := .illegalCmd, marks := s.marks ++ [.illegalCmd] })

/-- 42_drbg.md R221: the answered generate. From WAIT_SEED, the response and then the engine's step reseed with ENT_IN
as it stood at the response and generate with RC = 1, in one commit that leaves RC = 2. -/
def Obligations.SeedHandshakeReseedsThenGenerates : Prop :=
  ∀ (s : State) (g : Snapshot) (w : Word), s.Inv → s.seq = .waitSeed g →
    w.extractLsb' 0 8 = 0x14 → w.extractLsb' 11 21 = 0 → s.script = [.write 0x008 w] →
    let kv := drbgUpdate s.ctx.k s.ctx.v s.entIn
    let kv' := drbgUpdate kv.1 (add128 kv.2 (nblocks g.len.toNat)) (zeroBytes 48)
    Host.Core.run Sys2Proof.core 2 s = .next { s with
      seq := .idle, err := .ok, ovr := false, script := [], schedule := s.schedule.tail.tail,
      out := keystream (keySchedule kv.1) (inc128 kv.2) g.len.toNat,
      ctx := { s.ctx with k := kv'.1, v := kv'.2, rc := 2 } }

/-- 42_drbg.md R214: the generate loop, which advances the counter before each encryption, gives the keystream from
V + 1, and its last counter is V + nblocks. -/
def Obligations.GenerateLoopAdvancesThenEncrypts : Prop :=
  ∀ (rk : Schedule) (v : Bytes 16) (l : Nat),
    keystream rk (inc128 v) l =
      ((List.range (nblocks l)).flatMap fun i => (aesEncrypt rk (inc128^[i + 1] v)).toList).take l ∧
    add128 v (nblocks l) = inc128^[nblocks l] v

/-- 42_drbg.md R218: the output of a generate is a function of K, V and LEN alone, and a shorter generate from the
same K and V gives the start of a longer one's output. -/
def Obligations.GenerateOutputDependsOnKeyCounterLength : Prop :=
  ∀ (f f' : CmdFlags) (s s' t t' : State) (g g' : Snapshot), s.seq = .run g → s'.seq = .run g' →
    g.seedBytes = none → g'.seedBytes = none → s.ctx.k = s'.ctx.k → s.ctx.v = s'.ctx.v →
    exec (.drbgGenerate f) s = .next t → exec (.drbgGenerate f') s' = .next t' →
    t.seq = .idle → t'.seq = .idle → t.err = .ok → t'.err = .ok → g.len.toNat ≤ g'.len.toNat →
    t.out = t'.out.take g.len.toNat

/-- 42_drbg.md R223: DRBG_CONFIG_SEEDER (words 0x00000413, 0x00000013) completes in every CTX_STATE and changes the
seeder setting alone; PR_EN reads it; RI_OP is RI_HI:RI_LO as they stood at Accept (10_state.md R29). -/
def Obligations.DrbgConfigSeederCompletes : Prop :=
  decode 0x00000413 = .ok (.drbgConfigSeeder ⟨false, false, true⟩) ∧
  decode 0x00000013 = .ok (.drbgConfigSeeder ⟨false, false, false⟩) ∧
  ∀ (f : CmdFlags) (s : State) (g : Snapshot), s.seq = .run g →
    (f.seeder = true → exec (.drbgConfigSeeder f) s = .next { s with
      seq := .idle, err := .ok, ctx := { s.ctx with seederPresent := true, ri := g.riOp } }) ∧
    (f.seeder = false → exec (.drbgConfigSeeder f) s = .next { s with
      seq := .idle, err := .ok,
      ctx := { s.ctx with seederPresent := false, ri := BitVec.ofNat 64 (2 ^ 48) } }) ∧
    (∀ t, exec (.drbgConfigSeeder f) s = .next t → (regReadValue 0x004 t).getLsbD 10 = f.seeder) ∧
    ∀ w : Word, (snapshot w s).riOp.toNat = s.riHi.toNat * 2 ^ 32 + s.riLo.toNat

/-- 42_drbg.md R228: DRBG_DESTROY (word 0x00000015) completes in every CTX_STATE; the context is cleared and OUT
emptied, DRBG_K and DRBG_V read zero, STATUS[9:8] and OUT_AVAIL are 0; RKS and the operand registers are as before. -/
def Obligations.DrbgDestroyCompletes : Prop :=
  decode 0x00000015 = .ok (.drbgDestroy ⟨false, false, false⟩) ∧
  ∀ (f : CmdFlags) (s : State) (g : Snapshot), s.seq = .run g →
    ∃ t, exec (.drbgDestroy f) s = .next t ∧
      t = { s with seq := .idle, err := .ok, ctx := t.ctx, out := [] } ∧
      t.ctx.rc = 0 ∧ t.ctx.ri.toNat = 2 ^ 48 ∧ t.ctx.seederPresent = false ∧ t.ctx.state = .uninit ∧
      (regReadValue 0x004 t).extractLsb' 8 3 = 0 ∧ regReadValue 0x01C t = 0 ∧
      ∀ off : BitVec 32, 0x200 ≤ 4 * (off.extractLsb' 2 10).toNat → 4 * (off.extractLsb' 2 10).toNat ≤ 0x22C →
        regReadValue off t = 0

/-- 42_drbg.md R226: the only ways RC changes, over every step of a state that meets the invariant. -/
def Obligations.ReseedCounterChangesOnlyAsListed : Prop :=
  ∀ s s' : State, s.Inv → step s = .next s' → s'.ctx.rc ≠ s.ctx.rc →
    (∃ (g : Snapshot) (i : Instr), s.seq = .run g ∧ decode g.word = .ok i ∧
      (((∃ f, i = .drbgSeed f ∨ i = .drbgReseed f) ∧ s'.ctx.rc = 1) ∨
       ((∃ f, i = .drbgGenerate f) ∧ g.seedBytes = none ∧ s'.ctx.rc.toNat = s.ctx.rc.toNat + 1) ∨
       ((∃ f, i = .drbgGenerate f) ∧ g.seedBytes ≠ none ∧ s'.ctx.rc = 2) ∨
       ((∃ f, i = .drbgDestroy f) ∧ s'.ctx.rc = 0))) ∨
    (∃ rest, s.script = .reset :: rest ∧ s'.ctx.rc = 0)

/-- 60_exceptions.md R263: a command that completes with a code other than OK writes ERR and returns SEQ to IDLE, and
leaves every other piece of the block's state as it was. The marks are the model's ghost of R278. -/
def Obligations.FailedCommandCommitsNothing : Prop :=
  ∀ (i : Instr) (s t : State), exec i s = .next t → t.seq = .idle → t.err ≠ .ok →
    t = { s with seq := .idle, err := t.err, marks := t.marks }

/-- 30_encoding.md R93 (what each command writes), 10_state.md R21 (no command writes an operand register),
60_exceptions.md R263: the frame of every command, register by register. -/
def Obligations.CommandsWriteOnlyTheirResults : Prop :=
  ∀ (i : Instr) (s t : State), exec i s = .next t →
    (t.len = s.len ∧ t.adLen = s.adLen ∧ t.riLo = s.riLo ∧ t.riHi = s.riHi) ∧
    (t.keyIn = s.keyIn ∧ t.ctrIn = s.ctrIn ∧ t.entIn = s.entIn ∧ t.adIn = s.adIn) ∧
    (t.script = s.script ∧ t.notes = s.notes ∧ t.schedule = s.schedule) ∧
    (writesSchedule i = false → t.rks = s.rks ∧ t.rksValid = s.rksValid) ∧
    (writesOut i = false → t.out = s.out) ∧
    (writesCtrOut i = false → t.ctrOut = s.ctrOut) ∧
    (writesKeyState i = false → t.ctx.k = s.ctx.k ∧ t.ctx.v = s.ctx.v ∧ t.ctx.rc = s.ctx.rc) ∧
    (writesSeederSetting i = false → t.ctx.ri = s.ctx.ri ∧ t.ctx.seederPresent = s.ctx.seederPresent) ∧
    (writesCtxState i = false → t.ctx.state = s.ctx.state) ∧
    ((∀ f, i ≠ .drbgSeedResponse f) → t.ovr = s.ovr)

/-- 10_state.md R40, R43: no move of the host but a reset changes the DRBG context, RKS, CTR_OUT or ERR; OUT changes at
a read of OUT_DATA alone, which pops up to four bytes (20_memory.md R67). -/
def Obligations.ResultsChangeOnlyAtComplete : Prop :=
  ∀ (s s' : State) (op : HostOp) (rest : List HostOp), s.HostTurn op rest → op ≠ .reset →
    step s = .next s' →
    (s'.ctx = s.ctx ∧ s'.rks = s.rks ∧ s'.rksValid = s.rksValid ∧ s'.ctrOut = s.ctrOut ∧ s'.err = s.err) ∧
    (∀ off, op = .read off → off.extractLsb' 2 10 = 8 → s'.out = s.out.drop 4) ∧
    ((¬ ∃ off, op = .read off ∧ off.extractLsb' 2 10 = 8) → s'.out = s.out)

/-- 20_memory.md R73, 70_reset_and_hazards.md R294: what the host writes to operand registers while a command is in
RUN does not change what the command does. -/
def Obligations.RunningCommandIgnoresOperandWrites : Prop :=
  ∀ (i : Instr) (s t : State) (g : Snapshot) (off : BitVec 32) (v : Word), s.seq = .run g →
    off.extractLsb' 2 10 ≠ 2 → exec i s = .next t →
    exec i (regWrite off v s) = .next (regWrite off v t)

/-- 30_encoding.md R93 (what each command reads): two snapshots that agree on a command's operands give the same
state, but for the snapshot a waiting generate keeps. -/
def Obligations.CommandsReadOnlyTheirOperands : Prop :=
  ∀ (i : Instr) (s t t' : State) (g g' : Snapshot), operandsAgree i g g' →
    exec i { s with seq := .run g } = .next t → exec i { s with seq := .run g' } = .next t' →
    { t with seq := .idle } = { t' with seq := .idle } ∧ (t.seq = .idle ↔ t'.seq = .idle)

/-- 60_exceptions.md R277, 42_drbg.md R220: WAIT_SEED is left only by the Accept of DRBG_SEED_RESPONSE or by reset,
and until then no step changes the context, OUT excepted from what it may read out. -/
def Obligations.SeedWaitEndsOnlyByResponseOrReset : Prop :=
  ∀ (s s' : State) (g : Snapshot), s.seq = .waitSeed g → step s = .next s' →
    (s'.seq = .waitSeed g ∧ s'.ctx = s.ctx) ∨
    ((∃ off w rest, s.script = .write off w :: rest ∧ off.extractLsb' 2 10 = 2 ∧
        w.extractLsb' 0 8 = 0x14 ∧ w.extractLsb' 11 21 = 0) ∧
      s'.seq = .run { g with seedBytes := some s.entIn } ∧ s'.ctx = s.ctx) ∨
    ((∃ rest, s.script = .reset :: rest) ∧ s'.seq = .idle)

/-- 70_reset_and_hazards.md R299, R298: a command in RUN leaves RUN within one step more than the schedule has
entries, unless the host's script stops the model at a narrow transfer first. That the schedule is finite is the
model's form of the weak fairness of R299 (log 1). -/
def Obligations.RunningCommandLeavesRun : Prop :=
  ∀ (s : State) (g : Snapshot), s.seq = .run g →
    ∃ n, n ≤ s.schedule.length + 1 ∧
      ((∃ t, Host.Core.run Sys2Proof.core n s = .next t ∧ t.seq ≠ .run g) ∨
       Host.Core.run Sys2Proof.core n s = .refused .narrowTransfer)

/-- 60_exceptions.md R278: a recorded program fault is never cleared, whatever the step, reset included. -/
def Obligations.MarksAreNeverCleared : Prop :=
  ∀ s s' : State, step s = .next s' → s.marks <+: s'.marks

/-- 60_exceptions.md R274: a step of one instance, and a bus access of the instance that answers an address, leave every
other instance as it was. Where the windows of two instances overlap, that the first of them is the one that answers is
the model's DESIGN CHOICE (log 12): at such an address the two clauses on the bus rest on it. -/
def Obligations.InstancesShareNoState : Prop :=
  ∀ (p p' : Platform) (k j : Nat), j ≠ k →
    (p.step k = .next p' → p'.blocks[j]? = p.blocks[j]?) ∧
    (∀ (addr : Nat) (w : Word) (off : BitVec 32), p.route addr = some (k, off) →
      p.busWrite addr w = some p' → p'.blocks[j]? = p.blocks[j]?) ∧
    (∀ (addr : Nat) (v : Word) (off : BitVec 32), p.route addr = some (k, off) →
      p.busRead addr = some (v, p') → p'.blocks[j]? = p.blocks[j]?)
end

