-- ==== Sys2Proof/Laws/Bytes.lean ====
section
/-! SUPPORT. The laws of byte strings: reading a byte of what each operation builds, and equality byte by byte. -/

namespace Sys2Proof

theorem toList_tabulate {n : Nat} (f : Fin n → Byte) : (tabulate f).toList = List.ofFn f := by
  simp [tabulate, Vector.toList]

theorem byteAt_eq_toList_getD {n : Nat} (b : Bytes n) (i : Nat) : byteAt b i = b.toList.getD i 0 := rfl

theorem byteAt_of_lt {n : Nat} (b : Bytes n) (i : Nat) (h : i < n) : byteAt b i = b[i] := by
  have hl : b.toList.length = n := by simp
  rw [byteAt_eq_toList_getD, List.getD_eq_getElem _ _ (by omega)]
  simp

theorem byteAt_of_ge {n : Nat} (b : Bytes n) (i : Nat) (h : n ≤ i) : byteAt b i = 0 := by
  rw [byteAt_eq_toList_getD]
  exact List.getD_eq_default _ _ (by simpa using h)

/-- The one law of `tabulate`. -/
theorem byteAt_tabulate {n : Nat} (f : Fin n → Byte) (i : Nat) :
    byteAt (tabulate f) i = if h : i < n then f ⟨i, h⟩ else 0 := by
  split
  · rename_i h
    rw [byteAt_eq_toList_getD, toList_tabulate, List.getD_eq_getElem _ _ (by simpa using h)]
    simp
  · exact byteAt_of_ge _ _ (by omega)

@[simp] theorem byteAt_tabulate_of_lt {n : Nat} (f : Fin n → Byte) (i : Nat) (h : i < n) :
    byteAt (tabulate f) i = f ⟨i, h⟩ := by
  simp [byteAt_tabulate, h]

/-- Two byte strings are equal when their bytes are. -/
theorem ext_byteAt {n : Nat} {a b : Bytes n} (h : ∀ i, i < n → byteAt a i = byteAt b i) : a = b := by
  apply Vector.ext
  intro i hi
  have := h i hi
  rwa [byteAt_of_lt _ _ hi, byteAt_of_lt _ _ hi] at this

@[simp] theorem byteAt_zeroBytes (n i : Nat) : byteAt (zeroBytes n) i = 0 := by
  unfold zeroBytes
  rw [byteAt_tabulate]
  split <;> rfl

@[simp] theorem byteAt_xorBytes {n : Nat} (a b : Bytes n) (i : Nat) :
    byteAt (xorBytes a b) i = byteAt a i ^^^ byteAt b i := by
  unfold xorBytes
  rw [byteAt_tabulate]
  split
  · rfl
  · rename_i h
    rw [byteAt_of_ge a i (by omega), byteAt_of_ge b i (by omega)]
    decide

@[simp] theorem byteAt_sliceBytes {n : Nat} (b : Bytes n) (start m i : Nat) (h : i < m) :
    byteAt (sliceBytes b start m) i = byteAt b (start + i) := by
  simp [sliceBytes, h]

theorem byteAt_appendBytes {n m : Nat} (a : Bytes n) (b : Bytes m) (i : Nat) (h : i < n + m) :
    byteAt (appendBytes a b) i = if i < n then byteAt a i else byteAt b (i - n) := by
  simp [appendBytes, h]

theorem toList_eq_of_byteAt {n : Nat} (b : Bytes n) :
    b.toList = (List.range n).map (byteAt b) := by
  apply List.ext_getElem
  · simp
  · intro i h1 h2
    have hi : i < n := by simpa using h1
    simp [byteAt_of_lt _ _ hi]

theorem xorBytes_zero {n : Nat} (a : Bytes n) : xorBytes a (zeroBytes n) = a :=
  ext_byteAt fun i _ => by simp

theorem zero_xorBytes {n : Nat} (a : Bytes n) : xorBytes (zeroBytes n) a = a :=
  ext_byteAt fun i _ => by simp

theorem xorBytes_comm {n : Nat} (a b : Bytes n) : xorBytes a b = xorBytes b a :=
  ext_byteAt fun i _ => by simp [BitVec.xor_comm]

theorem xorBytes_xorBytes_self {n : Nat} (a b : Bytes n) : xorBytes (xorBytes a b) b = a :=
  ext_byteAt fun i _ => by simp

namespace Machine

theorem wordByte_packWord (b0 b1 b2 b3 : Byte) :
    wordByte (packWord b0 b1 b2 b3) 0 = b0 ∧ wordByte (packWord b0 b1 b2 b3) 1 = b1 ∧
    wordByte (packWord b0 b1 b2 b3) 2 = b2 ∧ wordByte (packWord b0 b1 b2 b3) 3 = b3 := by
  refine ⟨?_, ?_, ?_, ?_⟩ <;>
    (apply BitVec.eq_of_getLsbD_eq; intro i hi
     simp only [wordByte, packWord, BitVec.getLsbD_extractLsb', BitVec.getLsbD_append]
     have : i < 8 := hi
     interval_cases i <;> simp)

theorem packWord_wordByte (w : Word) :
    packWord (wordByte w 0) (wordByte w 1) (wordByte w 2) (wordByte w 3) = w := by
  apply BitVec.eq_of_getLsbD_eq; intro i hi
  simp only [wordByte, packWord, BitVec.getLsbD_extractLsb', BitVec.getLsbD_append]
  have : i < 32 := hi
  interval_cases i <;> simp

theorem byteAt_storeWord {n : Nat} (b : Bytes n) (k : Nat) (w : Word) (i : Nat) (h : i < n) :
    byteAt (storeWord b k w) i = if i / 4 = k then wordByte w (i % 4) else byteAt b i := by
  simp [storeWord, h]

/-- Reading the word that was stored. -/
theorem wordOf_storeWord_same {n : Nat} (b : Bytes n) (k : Nat) (w : Word) (h : 4 * k + 3 < n) :
    wordOf (storeWord b k w) k = w := by
  unfold wordOf
  rw [byteAt_storeWord _ _ _ _ (by omega), byteAt_storeWord _ _ _ _ (by omega),
    byteAt_storeWord _ _ _ _ (by omega), byteAt_storeWord _ _ _ _ (by omega)]
  have h0 : (4 * k) / 4 = k ∧ (4 * k) % 4 = 0 := by omega
  have h1 : (4 * k + 1) / 4 = k ∧ (4 * k + 1) % 4 = 1 := by omega
  have h2 : (4 * k + 2) / 4 = k ∧ (4 * k + 2) % 4 = 2 := by omega
  have h3 : (4 * k + 3) / 4 = k ∧ (4 * k + 3) % 4 = 3 := by omega
  simp only [h0, h1, h2, h3, if_true]
  exact packWord_wordByte w

/-- A store leaves every other word alone. -/
theorem wordOf_storeWord_other {n : Nat} (b : Bytes n) (k j : Nat) (w : Word) (h : 4 * j + 3 < n) (hne : j ≠ k) :
    wordOf (storeWord b k w) j = wordOf b j := by
  unfold wordOf
  rw [byteAt_storeWord _ _ _ _ (by omega), byteAt_storeWord _ _ _ _ (by omega),
    byteAt_storeWord _ _ _ _ (by omega), byteAt_storeWord _ _ _ _ (by omega)]
  rw [if_neg (by omega), if_neg (by omega), if_neg (by omega), if_neg (by omega)]

theorem wordOf_zeroBytes (n k : Nat) : wordOf (zeroBytes n) k = 0 := by
  simp [wordOf, packWord]

theorem byteAt_beBytes (n v i : Nat) (h : i < n) :
    byteAt (beBytes n v) i = BitVec.ofNat 8 (v / 256 ^ (n - 1 - i)) := by
  simp [beBytes, h]

theorem beBytes_zero (n : Nat) : beBytes n 0 = zeroBytes n :=
  ext_byteAt fun i hi => by simp [byteAt_beBytes _ _ _ hi]

end Machine

end Sys2Proof
end

