-- ==== Sys2Proof/Laws/State.lean ====
section
/-! SUPPORT. One lemma per field and update, so that no proof unfolds a record update. -/

namespace Sys2Proof.Machine

@[simp] theorem finish_seq (code : ResultCode) (s : State) : (finish code s).seq = .idle := rfl
@[simp] theorem finish_ovr (code : ResultCode) (s : State) : (finish code s).ovr = s.ovr := rfl
@[simp] theorem finish_err (code : ResultCode) (s : State) : (finish code s).err = code := rfl
@[simp] theorem finish_rksValid (code : ResultCode) (s : State) : (finish code s).rksValid = s.rksValid := rfl
@[simp] theorem finish_len (code : ResultCode) (s : State) : (finish code s).len = s.len := rfl
@[simp] theorem finish_adLen (code : ResultCode) (s : State) : (finish code s).adLen = s.adLen := rfl
@[simp] theorem finish_riLo (code : ResultCode) (s : State) : (finish code s).riLo = s.riLo := rfl
@[simp] theorem finish_riHi (code : ResultCode) (s : State) : (finish code s).riHi = s.riHi := rfl
@[simp] theorem finish_keyIn (code : ResultCode) (s : State) : (finish code s).keyIn = s.keyIn := rfl
@[simp] theorem finish_ctrIn (code : ResultCode) (s : State) : (finish code s).ctrIn = s.ctrIn := rfl
@[simp] theorem finish_entIn (code : ResultCode) (s : State) : (finish code s).entIn = s.entIn := rfl
@[simp] theorem finish_adIn (code : ResultCode) (s : State) : (finish code s).adIn = s.adIn := rfl
@[simp] theorem finish_out (code : ResultCode) (s : State) : (finish code s).out = s.out := rfl
@[simp] theorem finish_ctrOut (code : ResultCode) (s : State) : (finish code s).ctrOut = s.ctrOut := rfl
@[simp] theorem finish_rks (code : ResultCode) (s : State) : (finish code s).rks = s.rks := rfl
@[simp] theorem finish_ctx (code : ResultCode) (s : State) : (finish code s).ctx = s.ctx := rfl
@[simp] theorem finish_script (code : ResultCode) (s : State) : (finish code s).script = s.script := rfl
@[simp] theorem finish_notes (code : ResultCode) (s : State) : (finish code s).notes = s.notes := rfl
@[simp] theorem finish_schedule (code : ResultCode) (s : State) : (finish code s).schedule = s.schedule := rfl
@[simp] theorem finish_marks (code : ResultCode) (s : State) : (finish code s).marks = s.marks ++ code.marks := rfl

@[simp] theorem acceptCommand_seq (w : Word) (s : State) : (acceptCommand w s).seq = .run (snapshot w s) := rfl
@[simp] theorem acceptCommand_ovr (w : Word) (s : State) : (acceptCommand w s).ovr = false := rfl
@[simp] theorem acceptCommand_err (w : Word) (s : State) : (acceptCommand w s).err = s.err := rfl
@[simp] theorem acceptCommand_rksValid (w : Word) (s : State) : (acceptCommand w s).rksValid = s.rksValid := rfl
@[simp] theorem acceptCommand_len (w : Word) (s : State) : (acceptCommand w s).len = s.len := rfl
@[simp] theorem acceptCommand_adLen (w : Word) (s : State) : (acceptCommand w s).adLen = s.adLen := rfl
@[simp] theorem acceptCommand_riLo (w : Word) (s : State) : (acceptCommand w s).riLo = s.riLo := rfl
@[simp] theorem acceptCommand_riHi (w : Word) (s : State) : (acceptCommand w s).riHi = s.riHi := rfl
@[simp] theorem acceptCommand_keyIn (w : Word) (s : State) : (acceptCommand w s).keyIn = s.keyIn := rfl
@[simp] theorem acceptCommand_ctrIn (w : Word) (s : State) : (acceptCommand w s).ctrIn = s.ctrIn := rfl
@[simp] theorem acceptCommand_entIn (w : Word) (s : State) : (acceptCommand w s).entIn = s.entIn := rfl
@[simp] theorem acceptCommand_adIn (w : Word) (s : State) : (acceptCommand w s).adIn = s.adIn := rfl
@[simp] theorem acceptCommand_out (w : Word) (s : State) : (acceptCommand w s).out = s.out := rfl
@[simp] theorem acceptCommand_ctrOut (w : Word) (s : State) : (acceptCommand w s).ctrOut = s.ctrOut := rfl
@[simp] theorem acceptCommand_rks (w : Word) (s : State) : (acceptCommand w s).rks = s.rks := rfl
@[simp] theorem acceptCommand_ctx (w : Word) (s : State) : (acceptCommand w s).ctx = s.ctx := rfl
@[simp] theorem acceptCommand_script (w : Word) (s : State) : (acceptCommand w s).script = s.script := rfl
@[simp] theorem acceptCommand_notes (w : Word) (s : State) : (acceptCommand w s).notes = s.notes := rfl
@[simp] theorem acceptCommand_schedule (w : Word) (s : State) : (acceptCommand w s).schedule = s.schedule := rfl
@[simp] theorem acceptCommand_marks (w : Word) (s : State) : (acceptCommand w s).marks = s.marks := rfl

@[simp] theorem rejectCommand_seq (s : State) : (rejectCommand s).seq = s.seq := rfl
@[simp] theorem rejectCommand_ovr (s : State) : (rejectCommand s).ovr = true := rfl
@[simp] theorem rejectCommand_err (s : State) : (rejectCommand s).err = s.err := rfl
@[simp] theorem rejectCommand_rksValid (s : State) : (rejectCommand s).rksValid = s.rksValid := rfl
@[simp] theorem rejectCommand_len (s : State) : (rejectCommand s).len = s.len := rfl
@[simp] theorem rejectCommand_adLen (s : State) : (rejectCommand s).adLen = s.adLen := rfl
@[simp] theorem rejectCommand_riLo (s : State) : (rejectCommand s).riLo = s.riLo := rfl
@[simp] theorem rejectCommand_riHi (s : State) : (rejectCommand s).riHi = s.riHi := rfl
@[simp] theorem rejectCommand_keyIn (s : State) : (rejectCommand s).keyIn = s.keyIn := rfl
@[simp] theorem rejectCommand_ctrIn (s : State) : (rejectCommand s).ctrIn = s.ctrIn := rfl
@[simp] theorem rejectCommand_entIn (s : State) : (rejectCommand s).entIn = s.entIn := rfl
@[simp] theorem rejectCommand_adIn (s : State) : (rejectCommand s).adIn = s.adIn := rfl
@[simp] theorem rejectCommand_out (s : State) : (rejectCommand s).out = s.out := rfl
@[simp] theorem rejectCommand_ctrOut (s : State) : (rejectCommand s).ctrOut = s.ctrOut := rfl
@[simp] theorem rejectCommand_rks (s : State) : (rejectCommand s).rks = s.rks := rfl
@[simp] theorem rejectCommand_ctx (s : State) : (rejectCommand s).ctx = s.ctx := rfl
@[simp] theorem rejectCommand_script (s : State) : (rejectCommand s).script = s.script := rfl
@[simp] theorem rejectCommand_notes (s : State) : (rejectCommand s).notes = s.notes := rfl
@[simp] theorem rejectCommand_schedule (s : State) : (rejectCommand s).schedule = s.schedule := rfl
@[simp] theorem rejectCommand_marks (s : State) : (rejectCommand s).marks = s.marks ++ [.overrun] := rfl

@[simp] theorem acceptSeedResponse_seq (g : Snapshot) (s : State) : (acceptSeedResponse g s).seq = .run { g with seedBytes := some s.entIn } := rfl
@[simp] theorem acceptSeedResponse_ovr (g : Snapshot) (s : State) : (acceptSeedResponse g s).ovr = false := rfl
@[simp] theorem acceptSeedResponse_err (g : Snapshot) (s : State) : (acceptSeedResponse g s).err = s.err := rfl
@[simp] theorem acceptSeedResponse_rksValid (g : Snapshot) (s : State) : (acceptSeedResponse g s).rksValid = s.rksValid := rfl
@[simp] theorem acceptSeedResponse_len (g : Snapshot) (s : State) : (acceptSeedResponse g s).len = s.len := rfl
@[simp] theorem acceptSeedResponse_adLen (g : Snapshot) (s : State) : (acceptSeedResponse g s).adLen = s.adLen := rfl
@[simp] theorem acceptSeedResponse_riLo (g : Snapshot) (s : State) : (acceptSeedResponse g s).riLo = s.riLo := rfl
@[simp] theorem acceptSeedResponse_riHi (g : Snapshot) (s : State) : (acceptSeedResponse g s).riHi = s.riHi := rfl
@[simp] theorem acceptSeedResponse_keyIn (g : Snapshot) (s : State) : (acceptSeedResponse g s).keyIn = s.keyIn := rfl
@[simp] theorem acceptSeedResponse_ctrIn (g : Snapshot) (s : State) : (acceptSeedResponse g s).ctrIn = s.ctrIn := rfl
@[simp] theorem acceptSeedResponse_entIn (g : Snapshot) (s : State) : (acceptSeedResponse g s).entIn = s.entIn := rfl
@[simp] theorem acceptSeedResponse_adIn (g : Snapshot) (s : State) : (acceptSeedResponse g s).adIn = s.adIn := rfl
@[simp] theorem acceptSeedResponse_out (g : Snapshot) (s : State) : (acceptSeedResponse g s).out = s.out := rfl
@[simp] theorem acceptSeedResponse_ctrOut (g : Snapshot) (s : State) : (acceptSeedResponse g s).ctrOut = s.ctrOut := rfl
@[simp] theorem acceptSeedResponse_rks (g : Snapshot) (s : State) : (acceptSeedResponse g s).rks = s.rks := rfl
@[simp] theorem acceptSeedResponse_ctx (g : Snapshot) (s : State) : (acceptSeedResponse g s).ctx = s.ctx := rfl
@[simp] theorem acceptSeedResponse_script (g : Snapshot) (s : State) : (acceptSeedResponse g s).script = s.script := rfl
@[simp] theorem acceptSeedResponse_notes (g : Snapshot) (s : State) : (acceptSeedResponse g s).notes = s.notes := rfl
@[simp] theorem acceptSeedResponse_schedule (g : Snapshot) (s : State) : (acceptSeedResponse g s).schedule = s.schedule := rfl
@[simp] theorem acceptSeedResponse_marks (g : Snapshot) (s : State) : (acceptSeedResponse g s).marks = s.marks := rfl

@[simp] theorem tick_seq (s : State) : (tick s).seq = s.seq := rfl
@[simp] theorem tick_ovr (s : State) : (tick s).ovr = s.ovr := rfl
@[simp] theorem tick_err (s : State) : (tick s).err = s.err := rfl
@[simp] theorem tick_rksValid (s : State) : (tick s).rksValid = s.rksValid := rfl
@[simp] theorem tick_len (s : State) : (tick s).len = s.len := rfl
@[simp] theorem tick_adLen (s : State) : (tick s).adLen = s.adLen := rfl
@[simp] theorem tick_riLo (s : State) : (tick s).riLo = s.riLo := rfl
@[simp] theorem tick_riHi (s : State) : (tick s).riHi = s.riHi := rfl
@[simp] theorem tick_keyIn (s : State) : (tick s).keyIn = s.keyIn := rfl
@[simp] theorem tick_ctrIn (s : State) : (tick s).ctrIn = s.ctrIn := rfl
@[simp] theorem tick_entIn (s : State) : (tick s).entIn = s.entIn := rfl
@[simp] theorem tick_adIn (s : State) : (tick s).adIn = s.adIn := rfl
@[simp] theorem tick_out (s : State) : (tick s).out = s.out := rfl
@[simp] theorem tick_ctrOut (s : State) : (tick s).ctrOut = s.ctrOut := rfl
@[simp] theorem tick_rks (s : State) : (tick s).rks = s.rks := rfl
@[simp] theorem tick_ctx (s : State) : (tick s).ctx = s.ctx := rfl
@[simp] theorem tick_script (s : State) : (tick s).script = s.script := rfl
@[simp] theorem tick_notes (s : State) : (tick s).notes = s.notes := rfl
@[simp] theorem tick_schedule (s : State) : (tick s).schedule = s.schedule.tail := rfl
@[simp] theorem tick_marks (s : State) : (tick s).marks = s.marks := rfl

@[simp] theorem pollStatus_seq (s : State) : (pollStatus s).seq = s.seq := rfl
@[simp] theorem pollStatus_ovr (s : State) : (pollStatus s).ovr = s.ovr := rfl
@[simp] theorem pollStatus_err (s : State) : (pollStatus s).err = s.err := rfl
@[simp] theorem pollStatus_rksValid (s : State) : (pollStatus s).rksValid = s.rksValid := rfl
@[simp] theorem pollStatus_len (s : State) : (pollStatus s).len = s.len := rfl
@[simp] theorem pollStatus_adLen (s : State) : (pollStatus s).adLen = s.adLen := rfl
@[simp] theorem pollStatus_riLo (s : State) : (pollStatus s).riLo = s.riLo := rfl
@[simp] theorem pollStatus_riHi (s : State) : (pollStatus s).riHi = s.riHi := rfl
@[simp] theorem pollStatus_keyIn (s : State) : (pollStatus s).keyIn = s.keyIn := rfl
@[simp] theorem pollStatus_ctrIn (s : State) : (pollStatus s).ctrIn = s.ctrIn := rfl
@[simp] theorem pollStatus_entIn (s : State) : (pollStatus s).entIn = s.entIn := rfl
@[simp] theorem pollStatus_adIn (s : State) : (pollStatus s).adIn = s.adIn := rfl
@[simp] theorem pollStatus_out (s : State) : (pollStatus s).out = s.out := rfl
@[simp] theorem pollStatus_ctrOut (s : State) : (pollStatus s).ctrOut = s.ctrOut := rfl
@[simp] theorem pollStatus_rks (s : State) : (pollStatus s).rks = s.rks := rfl
@[simp] theorem pollStatus_ctx (s : State) : (pollStatus s).ctx = s.ctx := rfl
@[simp] theorem pollStatus_script (s : State) : (pollStatus s).script = s.script := rfl
@[simp] theorem pollStatus_notes (s : State) : (pollStatus s).notes = s.notes ++ [statusWord s] := rfl
@[simp] theorem pollStatus_schedule (s : State) : (pollStatus s).schedule = s.schedule := rfl
@[simp] theorem pollStatus_marks (s : State) : (pollStatus s).marks = s.marks := rfl

@[simp] theorem hardwareReset_seq (s : State) : (hardwareReset s).seq = State.reset.seq := rfl
@[simp] theorem hardwareReset_ovr (s : State) : (hardwareReset s).ovr = State.reset.ovr := rfl
@[simp] theorem hardwareReset_err (s : State) : (hardwareReset s).err = State.reset.err := rfl
@[simp] theorem hardwareReset_rksValid (s : State) : (hardwareReset s).rksValid = State.reset.rksValid := rfl
@[simp] theorem hardwareReset_len (s : State) : (hardwareReset s).len = State.reset.len := rfl
@[simp] theorem hardwareReset_adLen (s : State) : (hardwareReset s).adLen = State.reset.adLen := rfl
@[simp] theorem hardwareReset_riLo (s : State) : (hardwareReset s).riLo = State.reset.riLo := rfl
@[simp] theorem hardwareReset_riHi (s : State) : (hardwareReset s).riHi = State.reset.riHi := rfl
@[simp] theorem hardwareReset_keyIn (s : State) : (hardwareReset s).keyIn = State.reset.keyIn := rfl
@[simp] theorem hardwareReset_ctrIn (s : State) : (hardwareReset s).ctrIn = State.reset.ctrIn := rfl
@[simp] theorem hardwareReset_entIn (s : State) : (hardwareReset s).entIn = State.reset.entIn := rfl
@[simp] theorem hardwareReset_adIn (s : State) : (hardwareReset s).adIn = State.reset.adIn := rfl
@[simp] theorem hardwareReset_out (s : State) : (hardwareReset s).out = State.reset.out := rfl
@[simp] theorem hardwareReset_ctrOut (s : State) : (hardwareReset s).ctrOut = State.reset.ctrOut := rfl
@[simp] theorem hardwareReset_rks (s : State) : (hardwareReset s).rks = State.reset.rks := rfl
@[simp] theorem hardwareReset_ctx (s : State) : (hardwareReset s).ctx = State.reset.ctx := rfl
@[simp] theorem hardwareReset_script (s : State) : (hardwareReset s).script = s.script := rfl
@[simp] theorem hardwareReset_notes (s : State) : (hardwareReset s).notes = s.notes := rfl
@[simp] theorem hardwareReset_schedule (s : State) : (hardwareReset s).schedule = s.schedule := rfl
@[simp] theorem hardwareReset_marks (s : State) : (hardwareReset s).marks = s.marks := rfl

end Sys2Proof.Machine
end

