-- ==== Sys2Proof/Laws/Ops.lean ====
section
/-! SUPPORT. For each shared operation, once, everything it can do. -/

namespace Sys2Proof.Machine

/-- What a Complete step can answer with a next state. -/
theorem complete_next {s t : State} {body : Snapshot → State} :
    complete s body = .next t ↔ ∃ g, s.seq = .run g ∧ t = body g := by
  cases h : s.seq <;> simp [complete, h, eq_comm]

/-- A running command completes. -/
theorem complete_of_run {s : State} {g : Snapshot} (body : Snapshot → State) (h : s.seq = .run g) :
    complete s body = .next (body g) := by
  simp [complete, h]

/-- A Complete step never refuses, and faults only outside RUN. -/
theorem complete_fault {s : State} {body : Snapshot → State} {r : Fault} :
    complete s body = .fault r → r = .engineNotRunning ∧ ∀ g, s.seq ≠ .run g := by
  cases h : s.seq <;> simp [complete, h, eq_comm]

theorem complete_not_refused {s : State} {body : Snapshot → State} {r : Refusal} :
    complete s body ≠ .refused r := by
  unfold complete
  split <;> simp

@[simp] theorem marks_ok : ResultCode.marks .ok = [] := rfl
@[simp] theorem marks_badLength : ResultCode.marks .badLength = [] := rfl
@[simp] theorem marks_needReseed : ResultCode.marks .needReseed = [] := rfl
@[simp] theorem marks_illegalCmd : ResultCode.marks .illegalCmd = [.illegalCmd] := rfl
@[simp] theorem marks_notReady : ResultCode.marks .notReady = [.notReady] := rfl

/-- What presenting a command word can do. -/
theorem presentCommand_cases (w : Word) (s : State) :
    (s.seq = .idle ∧ presentCommand w s = acceptCommand w s) ∨
    (∃ g, s.seq = .waitSeed g ∧ isSeedResponse w = true ∧ presentCommand w s = acceptSeedResponse g s) ∨
    (s.seq ≠ .idle ∧ presentCommand w s = rejectCommand s) := by
  unfold presentCommand
  split
  · exact .inl ⟨by assumption, rfl⟩
  · rename_i g h
    split
    · exact .inr (.inl ⟨g, h, by assumption, rfl⟩)
    · exact .inr (.inr ⟨by simp [h], rfl⟩)
  · rename_i g h
    exact .inr (.inr ⟨by simp [h], rfl⟩)

/-- The registers and words an offset can select are those of the map. -/
theorem locate_word_lt {off : BitVec 32} {r : RegName} {k : Nat} (h : locate off = some (r, k)) :
    k < (regRow r).words := by
  unfold locate at h
  simp only [Option.map_eq_some_iff, Prod.mk.injEq] at h
  obtain ⟨row, hf, hr, hk⟩ := h
  have hp := List.find?_some hf
  have hm := List.mem_of_find?_eq_some hf
  simp only [decide_eq_true_eq] at hp
  simp only [regMap, List.mem_cons, List.not_mem_nil, or_false] at hm
  rcases hm with rfl | rfl | rfl | rfl | rfl | rfl | rfl | rfl | rfl | rfl | rfl | rfl | rfl | rfl | rfl | rfl |
    rfl | rfl | rfl | rfl | rfl <;> subst hr <;> simp only [regRow, regMap, List.find?] at * <;>
    simp at * <;> omega

/-- The offset that selects CMD. -/
theorem wordIndex_of_locate_cmd {off : BitVec 32} {k : Nat} (h : locate off = some (.cmd, k)) :
    wordIndex off = 2 := by
  unfold locate at h
  simp only [Option.map_eq_some_iff, Prod.mk.injEq] at h
  obtain ⟨row, hf, hr, -⟩ := h
  have hp := List.find?_some hf
  have hm := List.mem_of_find?_eq_some hf
  simp only [decide_eq_true_eq] at hp
  simp only [regMap, List.mem_cons, List.not_mem_nil, or_false] at hm
  rcases hm with rfl | rfl | rfl | rfl | rfl | rfl | rfl | rfl | rfl | rfl | rfl | rfl | rfl | rfl | rfl |
    rfl | rfl | rfl | rfl | rfl | rfl <;> (simp at hr; try (simp at hp; omega))

/-- What a host write can do: nothing, present a command, or change one operand register. -/
inductive WriteEffect (off : BitVec 32) (w : Word) (s : State) : State → Prop where
  | ignored : WriteEffect off w s s
  | presented (h : wordIndex off = 2) : WriteEffect off w s (presentCommand w s)
  | len : WriteEffect off w s { s with len := w }
  | adLen : WriteEffect off w s { s with adLen := w }
  | riLo : WriteEffect off w s { s with riLo := w }
  | riHi : WriteEffect off w s { s with riHi := w }
  | keyIn (k : Nat) : WriteEffect off w s { s with keyIn := storeWord s.keyIn k w }
  | ctrIn (k : Nat) : WriteEffect off w s { s with ctrIn := storeWord s.ctrIn k w }
  | entIn (k : Nat) : WriteEffect off w s { s with entIn := storeWord s.entIn k w }
  | adIn (k : Nat) : WriteEffect off w s { s with adIn := storeWord s.adIn k w }

theorem regWrite_effect (off : BitVec 32) (w : Word) (s : State) : WriteEffect off w s (regWrite off w s) := by
  unfold regWrite
  split
  · rename_i r k h
    cases r with
    | cmd => exact .presented (wordIndex_of_locate_cmd h)
    | len => exact .len
    | adLen => exact .adLen
    | riLo => exact .riLo
    | riHi => exact .riHi
    | keyIn => exact .keyIn k
    | ctrIn => exact .ctrIn k
    | entIn => exact .entIn k
    | adIn => exact .adIn k
    | cap | status | outAvail | outData | drbgRcLo | drbgRcHi | drbgRiLo | drbgRiHi | ctrOut | rks | drbgK
    | drbgV => exact .ignored
  · exact .ignored

/-- The offset that selects OUT_DATA. -/
theorem wordIndex_of_locate_outData {off : BitVec 32} {k : Nat} (h : locate off = some (.outData, k)) :
    wordIndex off = 8 := by
  unfold locate at h
  simp only [Option.map_eq_some_iff, Prod.mk.injEq] at h
  obtain ⟨row, hf, hr, -⟩ := h
  have hp := List.find?_some hf
  have hm := List.mem_of_find?_eq_some hf
  simp only [decide_eq_true_eq] at hp
  simp only [regMap, List.mem_cons, List.not_mem_nil, or_false] at hm
  rcases hm with rfl | rfl | rfl | rfl | rfl | rfl | rfl | rfl | rfl | rfl | rfl | rfl | rfl | rfl | rfl |
    rfl | rfl | rfl | rfl | rfl | rfl <;> (simp at hr; try (simp at hp; omega))

/-- What a host read does to the block, by its offset. -/
theorem regReadEffect_eq (off : BitVec 32) (s : State) :
    regReadEffect off s = if wordIndex off = 8 then { s with out := s.out.drop 4 } else s := by
  by_cases h : wordIndex off = 8
  · have hl : locate off = some (.outData, 0) := by simp [locate, h, regMap, List.find?]
    simp [regReadEffect, hl, h]
  · rw [if_neg h]
    unfold regReadEffect
    split
    · rename_i hl
      exact absurd (wordIndex_of_locate_outData hl) h
    · rfl

/-- What a host read can do to the block. -/
theorem regReadEffect_cases (off : BitVec 32) (s : State) :
    regReadEffect off s = s ∨ regReadEffect off s = { s with out := s.out.drop 4 } := by
  unfold regReadEffect
  split
  · exact .inr rfl
  · exact .inl rfl

end Sys2Proof.Machine
end

