-- ==== Sys2Proof/Laws/Exec.lean ====
section
/-! SUPPORT. For each command's meaning, everything it can answer. -/

namespace Sys2Proof.Machine

/-- The states a running command can leave, in the terms of the shared operations: every command but a generate that
asks for a seed ends in `finish`. -/
inductive CommandEffect (i : Instr) (s : State) (g : Snapshot) : State → Prop where
  | failed (code : ResultCode) (h : code ≠ .ok) : CommandEffect i s g (finish code s)
  | schedule (rks : Bytes 240) (valid : Bool)
      (h : (∃ f, i = .aesExpand f ∧ rks = keySchedule g.keyIn ∧ valid = true) ∨
        (∃ f, i = .rksClear f ∧ rks = zeroBytes 240 ∧ valid = false)) :
      CommandEffect i s g (finish .ok { s with rks := rks, rksValid := valid })
  | stream (rk : Schedule) (c : Bytes 16)
      (h : (∃ f, i = .aesCtr f ∧ rk = keySchedule g.keyIn ∧ c = g.ctrIn) ∨
        (∃ f, i = .aesCtrZeroiv f ∧ rk = keySchedule g.keyIn ∧ c = zeroBytes 16) ∨
        (∃ f, i = .aesCtrRks f ∧ g.rksValid = true ∧ rk = g.rks ∧ c = g.ctrIn)) :
      CommandEffect i s g (commitKeystream rk c g.len.toNat s)
  | increment (h : ∃ f, i = .ctrInc f) :
      CommandEffect i s g (finish .ok { s with ctrOut := inc128 g.ctrIn })
  | seeded (c : DrbgContext) (h : ∃ f, i = .drbgSeed f)
      (hc : c.state = .seeded ∧ c.rc = 1 ∧ c.ri = Config.noSeederInterval ∧ c.seederPresent = false) :
      CommandEffect i s g (finish .ok { s with ctx := c })
  | reseeded (k : Bytes 32) (v : Bytes 16) (h : ∃ f, i = .drbgReseed f) (hs : s.ctx.state = .seeded) :
      CommandEffect i s g (finish .ok { s with ctx := { s.ctx with k := k, v := v, rc := 1 } })
  | generated (out : List Byte) (k : Bytes 32) (v : Bytes 16) (rc0 : BitVec 64) (h : ∃ f, i = .drbgGenerate f)
      (hl : out.length ≤ g.len.toNat) (hrc : exhausted rc0 = false)
      (hs : (g.seedBytes = none ∧ rc0 = s.ctx.rc ∧ s.ctx.state = .seeded ∧ g.len.toNat ≤ Config.maxGenerate) ∨
        (g.seedBytes ≠ none ∧ rc0 = 1)) :
      CommandEffect i s g (finish .ok { s with out := out, ctx := { s.ctx with k := k, v := v, rc := rc0 + 1 } })
  | asked (h : ∃ f, i = .drbgGenerate f ∧ f.outv = true) (hn : g.seedBytes = none) (hs : s.ctx.state = .seeded)
      (hl : g.len.toNat ≤ Config.maxGenerate) (ht : seedTrigger s.ctx = true) :
      CommandEffect i s g { s with seq := .waitSeed g }
  | configured (present : Bool) (ri : BitVec 64) (h : ∃ f, i = .drbgConfigSeeder f)
      (hri : present = false → ri = Config.noSeederInterval) :
      CommandEffect i s g (finish .ok { s with ctx := { s.ctx with seederPresent := present, ri := ri } })
  | destroyed (h : ∃ f, i = .drbgDestroy f) :
      CommandEffect i s g (finish .ok { s with ctx := DrbgContext.cleared, out := [] })

theorem keystream_length_le (rk : Schedule) (c : Bytes 16) (l : Nat) : (keystream rk c l).length ≤ l := by
  simp only [keystream, List.length_take]
  omega

/-- What `generateBody` can leave. -/
theorem generateBody_cases (l : Nat) (k0 : Bytes 32) (v0 : Bytes 16) (rc0 : BitVec 64) (s : State) :
    (exhausted rc0 = true ∧ generateBody l k0 v0 rc0 s = finish .needReseed s) ∨
    (exhausted rc0 = false ∧ ∃ k v, generateBody l k0 v0 rc0 s =
      finish .ok { s with
        out := keystream (keySchedule k0) (inc128 v0) l, ctx := { s.ctx with k := k, v := v, rc := rc0 + 1 } }) := by
  unfold generateBody
  cases h : exhausted rc0 with
  | true => exact .inl ⟨rfl, by simp⟩
  | false => exact .inr ⟨rfl, _, _, by simp; rfl⟩

/-- Everything a command can do in RUN: it always answers a next state, one of those listed. -/
theorem exec_run (i : Instr) {s : State} {g : Snapshot} (h : s.seq = .run g) :
    ∃ t, exec i s = .next t ∧ CommandEffect i s g t := by
  cases i with
  | aesExpand f => exact ⟨_, complete_of_run _ h, .schedule _ _ (.inl ⟨f, rfl, rfl, rfl⟩)⟩
  | aesCtr f => exact ⟨_, complete_of_run _ h, .stream _ _ (.inl ⟨f, rfl, rfl, rfl⟩)⟩
  | aesCtrZeroiv f => exact ⟨_, complete_of_run _ h, .stream _ _ (.inr (.inl ⟨f, rfl, rfl, rfl⟩))⟩
  | aesCtrRks f =>
      refine ⟨_, complete_of_run _ h, ?_⟩
      split
      · rename_i hv
        exact .stream _ _ (.inr (.inr ⟨f, rfl, hv, rfl, rfl⟩))
      · exact .failed _ (by decide)
  | ctrInc f => exact ⟨_, complete_of_run _ h, .increment ⟨f, rfl⟩⟩
  | rksClear f => exact ⟨_, complete_of_run _ h, .schedule _ _ (.inr ⟨f, rfl, rfl, rfl⟩)⟩
  | drbgSeed f =>
      refine ⟨_, complete_of_run _ h, ?_⟩
      split
      · exact .failed _ (by decide)
      · exact .seeded _ ⟨f, rfl⟩ ⟨rfl, rfl, rfl, rfl⟩
  | drbgReseed f =>
      refine ⟨_, complete_of_run _ h, ?_⟩
      split
      · exact .failed _ (by decide)
      · rename_i hs
        split
        · exact .failed _ (by decide)
        · exact .reseeded _ _ ⟨f, rfl⟩ hs
  | drbgGenerate f =>
      refine ⟨_, complete_of_run _ h, ?_⟩
      split
      · rename_i seed hseed
        rcases generateBody_cases g.len.toNat (drbgUpdate s.ctx.k s.ctx.v seed).1
          (drbgUpdate s.ctx.k s.ctx.v seed).2 1 s with ⟨hx, -⟩ | ⟨hx, k, v, heq⟩
        · exact absurd hx (by decide)
        · rw [resumeGenerate, heq]
          exact .generated _ _ _ _ ⟨f, rfl⟩ (keystream_length_le _ _ _) hx (.inr ⟨by simp [hseed], rfl⟩)
      · rename_i hnone
        split
        · exact .failed _ (by decide)
        · rename_i hs
          split
          · exact .failed _ (by decide)
          · rename_i hl
            simp only [badGenLen, Bool.or_eq_true, decide_eq_true_eq, Bool.not_eq_true', not_or,
              Bool.not_eq_false] at hl
            split
            · rename_i ht
              exact .asked ⟨f, rfl, hl.2⟩ hnone hs (by omega) ht
            · rcases generateBody_cases g.len.toNat s.ctx.k s.ctx.v s.ctx.rc s with ⟨-, heq⟩ | ⟨hx, k, v, heq⟩
              · rw [heq]; exact .failed _ (by decide)
              · rw [heq]
                exact .generated _ _ _ _ ⟨f, rfl⟩ (keystream_length_le _ _ _) hx
                  (.inl ⟨hnone, rfl, hs, by omega⟩)
  | drbgConfigSeeder f =>
      refine ⟨_, complete_of_run _ h, ?_⟩
      split
      · exact .configured _ _ ⟨f, rfl⟩ (by simp)
      · exact .configured _ _ ⟨f, rfl⟩ (by simp)
  | drbgSeedResponse f =>
      exact ⟨finish .illegalCmd s, by simp [exec, execDrbgSeedResponse, h], .failed _ (by decide)⟩
  | drbgDestroy f => exact ⟨_, complete_of_run _ h, .destroyed ⟨f, rfl⟩⟩

/-- Outside RUN a meaning answers a next state only for a seed response in WAIT_SEED. -/
theorem exec_next (i : Instr) {s t : State} (h : exec i s = .next t) :
    (∃ g, s.seq = .run g ∧ CommandEffect i s g t) ∨
    (∃ f g, i = .drbgSeedResponse f ∧ s.seq = .waitSeed g ∧ t = acceptSeedResponse g s) := by
  cases hs : s.seq with
  | run g =>
      obtain ⟨t', ht, he⟩ := exec_run i hs
      rw [h] at ht
      cases ht
      exact .inl ⟨g, rfl, he⟩
  | idle =>
      exfalso
      cases i <;> simp [exec, execAesExpand, execAesCtr, execAesCtrZeroiv, execAesCtrRks, execCtrInc, execRksClear,
        execDrbgSeed, execDrbgReseed, execDrbgGenerate, execDrbgConfigSeeder, execDrbgSeedResponse,
        execDrbgDestroy, complete, hs] at h
  | waitSeed g =>
      right
      cases i <;> simp [exec, execAesExpand, execAesCtr, execAesCtrZeroiv, execAesCtrRks, execCtrInc, execRksClear,
        execDrbgSeed, execDrbgReseed, execDrbgGenerate, execDrbgConfigSeeder, execDrbgSeedResponse,
        execDrbgDestroy, complete, hs] at h
      exact ⟨_, g, rfl, rfl, h.symm⟩

end Sys2Proof.Machine
end

