-- ==== Sys2Proof/Laws/PerInstr.lean ====
section
/-! SUPPORT. Statements made command by command. -/

namespace Sys2Proof.Laws.TableRow

/-- A command's word matches one row of the opcode map, the row of its own opcode, under the mask. -/
def Statement (i : Instr) : Prop :=
  matchingRows (encode i) = opcodeTable.filter (fun row => decide (row.pattern = i.opcode.setWidth 32)) ∧
  (matchingRows (encode i)).length = 1

/-- The eight values of the flags are all there are. -/
theorem of_all_flags {c : CmdFlags → Instr}
    (h : ∀ a o s : Bool, Statement (c ⟨a, o, s⟩)) (f : CmdFlags) : Statement (c f) := h f.adv f.outv f.seeder

theorem aesExpand (f : CmdFlags) : Statement (.aesExpand f) :=
  of_all_flags (c := .aesExpand) (by unfold Statement; decide) f

theorem aesCtr (f : CmdFlags) : Statement (.aesCtr f) :=
  of_all_flags (c := .aesCtr) (by unfold Statement; decide) f

theorem aesCtrZeroiv (f : CmdFlags) : Statement (.aesCtrZeroiv f) :=
  of_all_flags (c := .aesCtrZeroiv) (by unfold Statement; decide) f

theorem aesCtrRks (f : CmdFlags) : Statement (.aesCtrRks f) :=
  of_all_flags (c := .aesCtrRks) (by unfold Statement; decide) f

theorem ctrInc (f : CmdFlags) : Statement (.ctrInc f) :=
  of_all_flags (c := .ctrInc) (by unfold Statement; decide) f

theorem rksClear (f : CmdFlags) : Statement (.rksClear f) :=
  of_all_flags (c := .rksClear) (by unfold Statement; decide) f

theorem drbgSeed (f : CmdFlags) : Statement (.drbgSeed f) :=
  of_all_flags (c := .drbgSeed) (by unfold Statement; decide) f

theorem drbgReseed (f : CmdFlags) : Statement (.drbgReseed f) :=
  of_all_flags (c := .drbgReseed) (by unfold Statement; decide) f

theorem drbgGenerate (f : CmdFlags) : Statement (.drbgGenerate f) :=
  of_all_flags (c := .drbgGenerate) (by unfold Statement; decide) f

theorem drbgConfigSeeder (f : CmdFlags) : Statement (.drbgConfigSeeder f) :=
  of_all_flags (c := .drbgConfigSeeder) (by unfold Statement; decide) f

theorem drbgSeedResponse (f : CmdFlags) : Statement (.drbgSeedResponse f) :=
  of_all_flags (c := .drbgSeedResponse) (by unfold Statement; decide) f

theorem drbgDestroy (f : CmdFlags) : Statement (.drbgDestroy f) :=
  of_all_flags (c := .drbgDestroy) (by unfold Statement; decide) f

end Sys2Proof.Laws.TableRow
end

