-- ==== Sys2Proof/Laws/Step.lean ====
section
/-! SUPPORT. What one step can do: the inversion lemmas of the agents' moves and of `step`. -/

namespace Sys2Proof.Machine

/-- Every way a move of the host can answer a next state. -/
inductive HostEffect (op : HostOp) (rest : List HostOp) (s : State) : State → Prop where
  | read (off : BitVec 32) (h : op = .read off) : HostEffect op rest s (hostRead off { s with script := rest })
  | write (off : BitVec 32) (w : Word) (h : op = .write off w) :
      HostEffect op rest s (regWrite off w { s with script := rest })
  | pollAgain (h : op = .waitIdle ∨ op = .waitSeed) (hrun : ∃ g, s.seq = .run g) :
      HostEffect op rest s (pollStatus s)
  | pollEnd (h : op = .waitIdle ∨ op = .waitSeed) : HostEffect op rest s (pollStatus { s with script := rest })
  | reset (h : op = .reset) : HostEffect op rest s (hardwareReset { s with script := rest })

/-- Busy with no seed request is RUN. -/
theorem run_of_busy {s : State} (hb : busy s = true) (hq : ¬ seedReq s = true) : ∃ g, s.seq = .run g := by
  cases hs : s.seq with
  | idle => simp [busy, hs] at hb
  | run g => exact ⟨g, rfl⟩
  | waitSeed g => simp [seedReq, hs] at hq

theorem hostStep_next {op : HostOp} {rest : List HostOp} {s t : State} (h : hostStep op rest s = .next t) :
    HostEffect op rest s t := by
  cases op with
  | read off => cases h; exact .read off rfl
  | write off w => cases h; exact .write off w rfl
  | narrow size off => cases h
  | waitIdle =>
      simp only [hostStep] at h
      split at h
      · cases h
      · rename_i hq
        split at h <;> rename_i hb <;> cases h
        · exact .pollAgain (.inl rfl) (run_of_busy hb hq)
        · exact .pollEnd (.inl rfl)
  | waitSeed =>
      simp only [hostStep] at h
      split at h <;> rename_i hq <;> cases h
      · exact .pollEnd (.inr rfl)
      · simp only [Bool.or_eq_true, Bool.not_eq_true', not_or, Bool.not_eq_false] at hq
        exact .pollAgain (.inr rfl) (run_of_busy hq.2 hq.1)
  | reset => cases h; exact .reset rfl

/-- What the engine's step does in RUN. -/
theorem engineStep_run {s : State} {g : Snapshot} (h : s.seq = .run g) :
    (∃ i, decode g.word = .ok i ∧ engineStep s = exec i s) ∨
    (∃ e, decode g.word = .error e ∧ engineStep s = .next (finish .illegalCmd s)) := by
  unfold engineStep
  rw [h]
  cases hd : decode g.word with
  | ok i => exact .inl ⟨i, rfl, by simp [hd]⟩
  | error e => exact .inr ⟨e, rfl, by simp [hd]⟩

/-- Who moves. -/
theorem nextAgent_engine {s : State} : nextAgent s = some .engine ↔ s.EngineTurn := by
  unfold nextAgent State.EngineTurn
  cases hs : s.seq <;> cases hc : s.script <;> simp
  cases hd : s.schedule with
  | nil => simp
  | cons a as => cases a <;> simp

theorem nextAgent_host {s : State} : nextAgent s = some .host ↔ ∃ op rest, s.HostTurn op rest := by
  unfold nextAgent State.HostTurn
  cases hs : s.seq <;> cases hc : s.script <;> simp
  cases hd : s.schedule with
  | nil => simp
  | cons a as => cases a <;> simp

theorem nextAgent_none {s : State} :
    nextAgent s = none ↔ s.script = [] ∧ ∀ g, s.seq ≠ .run g := by
  unfold nextAgent
  cases hs : s.seq <;> cases hc : s.script <;> simp

/-- The step at the engine's turn. -/
theorem step_engineTurn {s : State} (h : s.EngineTurn) : step s = engineStep (tick s) := by
  simp [step, nextAgent_engine.mpr h]

/-- The step at the host's turn. -/
theorem step_hostTurn {s : State} {op : HostOp} {rest : List HostOp} (h : s.HostTurn op rest) :
    step s = hostStep op rest (tick s) := by
  have hn : nextAgent s = some .host := nextAgent_host.mpr ⟨op, rest, h⟩
  simp [step, hn, hostMove, h.1]

/-- With the next moves the host's, the head of its script is performed next. -/
theorem State.HostMoves.hostTurn {n : Nat} {s : State} {op : HostOp} {rest : List HostOp}
    (h : s.HostMoves (n + 1)) (hs : s.script = op :: rest) : s.HostTurn op rest := by
  refine ⟨hs, fun hr => ?_⟩
  have := h hr
  cases hd : s.schedule with
  | nil => simp [hd, List.replicate_succ] at this
  | cons a as => simp [hd, List.replicate_succ] at this; simp [this.1]

/-- The host's moves after one of them, where no command came into RUN by it. -/
theorem State.HostMoves.tail {n : Nat} {s t : State} (h : s.HostMoves (n + 1))
    (hrun : (∃ g, t.seq = .run g) → ∃ g, s.seq = .run g) (ht : t.schedule = s.schedule.tail) : t.HostMoves n := by
  intro hr
  have := h (hrun hr)
  rw [ht]
  cases hd : s.schedule with
  | nil => simp [hd, List.replicate_succ] at this
  | cons a as => simp [hd, List.replicate_succ] at this; simpa using this.2

/-- The step where no agent can move. -/
theorem step_quiet {s : State} (hscript : s.script = []) (hseq : ∀ g, s.seq ≠ .run g) :
    step s = quietStep s := by
  simp [step, nextAgent_none.mpr ⟨hscript, hseq⟩]

/-- Every state is at some agent's turn, or quiet. -/
theorem turn_cases (s : State) :
    s.EngineTurn ∨ (∃ op rest, s.HostTurn op rest) ∨ (s.script = [] ∧ ∀ g, s.seq ≠ .run g) := by
  cases h : nextAgent s with
  | none => exact .inr (.inr (nextAgent_none.mp h))
  | some a =>
      cases a with
      | engine => exact .inl (nextAgent_engine.mp h)
      | host => exact .inr (.inl (nextAgent_host.mp h))

/-- Every way a step can answer a next state. -/
theorem step_next_cases {s t : State} (h : step s = .next t) :
    (s.EngineTurn ∧ ∃ g, s.seq = .run g ∧
      ((∃ i, decode g.word = .ok i ∧ exec i (tick s) = .next t) ∨
       (∃ e, decode g.word = .error e ∧ t = finish .illegalCmd (tick s)))) ∨
    (∃ op rest, s.HostTurn op rest ∧ HostEffect op rest (tick s) t) ∨
    (s.script = [] ∧ s.seq = .idle ∧ t = s) := by
  rcases turn_cases s with he | ⟨op, rest, hh⟩ | ⟨hscript, hseq⟩
  · rw [step_engineTurn he] at h
    obtain ⟨g, hg⟩ := he.1
    refine .inl ⟨he, g, hg, ?_⟩
    rcases engineStep_run (s := tick s) (g := g) hg with ⟨i, hd, hx⟩ | ⟨e, hd, hx⟩
    · exact .inl ⟨i, hd, hx ▸ h⟩
    · rw [hx] at h
      cases h
      exact .inr ⟨e, hd, rfl⟩
  · rw [step_hostTurn hh] at h
    exact .inr (.inl ⟨op, rest, hh, hostStep_next h⟩)
  · rw [step_quiet hscript hseq] at h
    refine .inr (.inr ⟨hscript, ?_⟩)
    cases hs : s.seq with
    | idle =>
        simp [quietStep, seedReq, hs] at h
        exact ⟨rfl, h.symm⟩
    | run g => exact absurd hs (hseq g)
    | waitSeed g => simp [quietStep, seedReq, hs] at h

end Sys2Proof.Machine
end

