-- ==== Sys2Proof/Tests/Slice0.lean ====
section
/-! SUPPORT. The model's own tests: words decoded, ill-formed lines refused, vectors of 95_test_vectors.md (V), and for
each statement with hypotheses a concrete state and operands that meet them. -/

namespace Sys2Proof.Tests

open Sys2Proof.Machine

/-! Decoding: words written out from 30_encoding.md R91, R94 (V4.1). -/

theorem test_decode_aes :
    decode 0b00000000000000000000000000000001 = .ok (.aesExpand ⟨false, false, false⟩) ∧
    decode 0b00000000000000000000000000000110 = .ok (.rksClear ⟨false, false, false⟩) ∧
    decode 0b00000000000000000000010100000001 = .ok (.aesExpand ⟨true, false, true⟩) := by decide

theorem test_decode_ctr :
    decode 0b00000000000000000000011100000010 = .ok (.aesCtr ⟨true, true, true⟩) ∧
    decode 0b00000000000000000000000000000011 = .ok (.aesCtrZeroiv ⟨false, false, false⟩) ∧
    decode 0b00000000000000000000000000000100 = .ok (.aesCtrRks ⟨false, false, false⟩) ∧
    decode 0b00000000000000000000000000000101 = .ok (.ctrInc ⟨false, false, false⟩) := by decide

theorem test_decode_drbg :
    decode 0b00000000000000000000000100010000 = .ok (.drbgSeed ⟨true, false, false⟩) ∧
    decode 0b00000000000000000000000100010001 = .ok (.drbgReseed ⟨true, false, false⟩) ∧
    decode 0b00000000000000000000001000010010 = .ok (.drbgGenerate ⟨false, true, false⟩) ∧
    decode 0b00000000000000000000010000010011 = .ok (.drbgConfigSeeder ⟨false, false, true⟩) ∧
    decode 0b00000000000000000000000000010100 = .ok (.drbgSeedResponse ⟨false, false, false⟩) ∧
    decode 0b00000000000000000000000000010101 = .ok (.drbgDestroy ⟨false, false, false⟩) := by decide

theorem test_decode_illegal :
    decode 0x00000000 = .error .unknownOpcode ∧ decode 0x00000007 = .error .unknownOpcode ∧
    decode 0x0000000F = .error .unknownOpcode ∧ decode 0x00000016 = .error .unknownOpcode ∧
    decode 0x000000FF = .error .unknownOpcode ∧ decode 0x00000812 = .error .reservedBitsSet ∧
    decode 0x80000001 = .error .reservedBitsSet := by decide

theorem test_encode :
    encode (.drbgGenerate ⟨false, true, false⟩) = 0x00000212 ∧
    encode (.drbgConfigSeeder ⟨false, false, true⟩) = 0x00000413 ∧
    encode (.drbgSeed ⟨true, false, false⟩) = 0x00000110 := by decide

theorem test_decodeTableWord :
    decodeTableWord 32 0x00000712 = some (.drbgGenerate ⟨true, true, true⟩) ∧
    decodeTableWord 16 0x00010015 = some (.drbgDestroy ⟨false, false, false⟩) ∧
    decodeTableWord 32 0x00000800 = none ∧ decodeTableWord 40 0x00000001 = none := by decide

/-! WellFormed: one ill-formed line for each check (30_encoding.md R100, R101). -/

theorem test_wf_wr_index : (ScriptLine.wr .keyIn 8 0).wf = false ∧ (ScriptLine.wr .keyIn 7 0).wf = true := by decide
theorem test_wf_wr_immediate :
    (ScriptLine.wr .len 0 (2 ^ 32)).wf = false ∧ (ScriptLine.wr .len 0 (2 ^ 32 - 1)).wf = true := by decide
theorem test_wf_rd_index : (ScriptLine.rd .rks 60).wf = false ∧ (ScriptLine.rd .rks 59).wf = true := by decide
theorem test_wf_loadb_register : (ScriptLine.loadb .rks [0, 0, 0, 0]).wf = false := by decide
theorem test_wf_loadb_whole_words : (ScriptLine.loadb .keyIn [0, 0, 0]).wf = false := by decide
theorem test_wf_loadb_length :
    (ScriptLine.loadb .ctrIn (List.replicate 20 0)).wf = false ∧
    (ScriptLine.loadb .ctrIn (List.replicate 16 0)).wf = true := by decide
theorem test_wf_ldi64 : (ScriptLine.ldi64 (2 ^ 64)).wf = false ∧ (ScriptLine.ldi64 (2 ^ 64 - 1)).wf = true := by decide
theorem test_wf_commands : ∀ a o s : Bool, (Instr.drbgGenerate ⟨a, o, s⟩).wf = true := by decide

/-- 30_encoding.md R101: the first byte is the most significant, and LDI64 splits low word first. -/
theorem test_expand :
    (ScriptLine.loadb .ctrIn [0x01, 0x02, 0x03, 0x04, 0x05, 0x06, 0x07, 0x08]).expand =
      [.write 0x060 0x01020304, .write 0x064 0x05060708] ∧
    (ScriptLine.ldi64 0x0000000500000007).expand = [.write 0x014 7, .write 0x018 5] ∧
    (ScriptLine.readout 5).expand = [.read 0x020, .read 0x020] := by decide

/-! The functions: V1.1, V1.6, V1.5, V2.1. -/

/-- V1.1, from FIPS-197. -/
theorem test_field : gmul 0x57 0x83 = 0xC1 ∧ gmul 0x57 0x13 = 0xFE ∧ xtime 0x80 = 0x1B ∧ rcon 7 = 0x40 := by decide

/-- V1.1. -/
theorem test_sbox : sbox 0x00 = 0x63 ∧ sbox 0x01 = 0x7C ∧ sbox 0x10 = 0xCA ∧ sbox 0x53 = 0xED ∧ sbox 0xFF = 0x16 := by
  decide

/-- V1.6. -/
theorem test_mixColumns :
    mixColumns (beBytes 16 0xdb135345f20a225c2d26314cd4d4d4d5) =
      beBytes 16 0x8e4da1bc9fdc589d4d7ebdf8d5d5d7d6 := by decide +kernel

/-- V1.5: AES-256 of the zero block under the zero key. -/
theorem test_aesEncrypt_zero :
    aesEncrypt (keySchedule (zeroBytes 32)) (zeroBytes 16) = beBytes 16 0xdc95c078a2408989ad48a21492842087 := by
  decide +kernel

/-- V2.1. -/
theorem test_inc128 :
    inc128 (beBytes 16 0xffffffffffffffff) = beBytes 16 0x10000000000000000 ∧
    inc128 (beBytes 16 0x7fffffffffffffffffffffffffffffff) = beBytes 16 0x80000000000000000000000000000000 := by
  decide +kernel

/-! The commands, one step each. `running w f` is the block that has accepted `w` with the operands `f` sets. -/

/-- The block after Accept of a word, from reset with the operands that `f` sets. -/
def running (w : Word) (f : State → State) : State := acceptCommand w (f State.reset)

/-- What the step answers, and then what `obs` sees in it; none where it stops. -/
def observe {α : Type} (obs : State → α) (s : State) : Option α :=
  match step s with
  | .next t => some (obs t)
  | .fault _ | .refused _ => none

/-- The key of V1.2 (FIPS-197, A.3). -/
def keyA3 : Bytes 32 := beBytes 32 0x603deb1015ca71be2b73aef0857d77811f352c073b6108d72d9810a30914dff4

/-- K00 of V1.3. -/
def keyK00 : Bytes 32 := beBytes 32 0x000102030405060708090a0b0c0d0e0f101112131415161718191a1b1c1d1e1f

/-- A seeded block with RC = `rc`. -/
def seededAt (rc : Nat) (s : State) : State :=
  { s with ctx := { s.ctx with state := .seeded, rc := BitVec.ofNat 64 rc } }

/-- A seeded block with RC = 1 and a seeder whose interval is 0 (V3.7). -/
def seededWithSeeder (s : State) : State :=
  { s with ctx := { s.ctx with state := .seeded, rc := 1, ri := 0, seederPresent := true } }

/-- V1.8: STATUS and the last word of RKS. -/
theorem test_aesExpand :
    observe (fun t => (statusWord t, regReadValue 0x1EC t)) (running 0x01 fun s => { s with keyIn := keyA3 }) =
      some (0x00000008, 0x706c631e) := by decide +kernel

/-- V2.2, LEN = 1: one byte, and the counter one block on. -/
theorem test_aesCtr :
    observe (fun t => (t.out, regReadValue 0x07C t)) (running 0x02 fun s => { s with keyIn := keyK00, len := 1 }) =
      some ([0xf2], 1) := by decide +kernel

/-- R170 with LEN = 0: CTR_IN is not read. -/
theorem test_aesCtrZeroiv :
    observe (fun t => (t.out, regReadValue 0x07C t, statusWord t)) (running 0x03 fun s => { s with ctrIn := beBytes 16 5 }) =
      some ([], 0, 0) := by decide +kernel

/-- V2.9: without a schedule. -/
theorem test_aesCtrRks_notReady :
    observe (fun t => (statusWord t, t.marks)) (running 0x04 id) = some (0x00000040, [.notReady]) := by decide +kernel

/-- V2.9, R171: LEN = 0 with a schedule completes. -/
theorem test_aesCtrRks_empty :
    observe (fun t => (statusWord t, regReadValue 0x07C t))
      (running 0x04 fun s => { s with rksValid := true, ctrIn := beBytes 16 7 }) = some (0x00000008, 7) := by
  decide +kernel

/-- V2.1. -/
theorem test_ctrInc :
    observe (fun t => (regReadValue 0x07C t, regReadValue 0x06C t))
      (running 0x05 fun s => { s with ctrIn := beBytes 16 0x0102030405060708090a0b0c0d0e0fff }) =
      some (0x0d0e1000, 0x0d0e0fff) := by decide +kernel

/-- V1.8, R135. -/
theorem test_rksClear :
    observe (fun t => (statusWord t, regReadValue 0x100 t))
      (running 0x06 fun s => { s with rksValid := true, rks := tabulate fun _ => 0xFF }) = some (0, 0) := by
  decide +kernel

/-- V3.2: zero entropy gives the mask. -/
theorem test_drbgSeed :
    observe (fun t => (statusWord t, regReadValue 0x200 t, regReadValue 0x22C t, t.ctx.rc)) (running 0x10 id) =
      some (0x00000100, 0x530f8afb, 0x7506358e, 1) := by decide +kernel

/-- V3.8: 49 bytes. -/
theorem test_drbgSeed_badLength :
    observe statusWord (running 0x110 fun s => { s with adLen := 49 }) = some 0x00000010 := by decide +kernel

/-- V3.9: before the first seed, whatever ADLEN is. -/
theorem test_drbgReseed_notReady :
    observe statusWord (running 0x111 fun s => { s with adLen := 49 }) = some 0x00000040 := by decide +kernel

/-- By 42_drbg.md R201, R207 with the zero key and V = 0: the first word of the mask (V3.1), and PR_EN kept (V3.9). -/
theorem test_drbgReseed :
    observe (fun t => (statusWord t, regReadValue 0x200 t, t.ctx.rc))
      (running 0x11 fun s => { seededWithSeeder s with ctx := { (seededWithSeeder s).ctx with rc := 9 } }) =
      some (0x00000500, 0x530f8afb, 1) := by decide +kernel

/-- V3.13: the counter wraps before the first block. -/
theorem test_drbgGenerate :
    observe (fun t => (t.out.take 4, t.ctx.rc))
      (running 0x212 fun s => { s with
        len := 16, ctx := { s.ctx with state := .seeded, k := keyK00, v := beBytes 16 (2 ^ 128 - 1), rc := 1 } }) =
      some ([0xf2, 0x90, 0x00, 0xb6], 2) := by decide +kernel

/-- V3.11: exhausted, and the length check before it. -/
theorem test_drbgGenerate_exhausted :
    observe statusWord (running 0x212 fun s => seededAt (2 ^ 48 + 1) { s with len := 16 }) = some 0x00000220 ∧
    observe statusWord (running 0x212 fun s => seededAt (2 ^ 48 + 1) { s with len := 65536 }) = some 0x00000210 := by
  decide +kernel

/-- V3.12. -/
theorem test_drbgConfigSeeder :
    observe (fun t => (statusWord t, regReadValue 0x02C t)) (running 0x413 fun s => { s with riLo := 5 }) =
      some (0x00000400, 5) := by decide +kernel

/-- V3.7, V3.6: the trigger with RI = 0, then the answer's Accept. -/
theorem test_drbgSeedResponse :
    observe (fun t => (statusWord t, statusWord (regWrite 0x008 0x14 t))) (running 0x212 fun s => seededWithSeeder s) =
      some (0x00000503, 0x00000501) := by decide +kernel

/-- V4.1: accepted in IDLE. -/
theorem test_drbgSeedResponse_idle : observe statusWord (running 0x14 id) = some 0x00000030 := by decide +kernel

/-- V3.12. -/
theorem test_drbgDestroy :
    observe (fun t => (statusWord t, regReadValue 0x01C t, regReadValue 0x200 t, t.ctx.ri))
      (running 0x15 fun s => seededWithSeeder { s with out := [1, 2, 3] }) =
      some (0, 0, 0, BitVec.ofNat 64 (2 ^ 48)) := by decide +kernel

/-- V4.2: a word written before the Complete step is rejected. -/
theorem test_overrun :
    regReadValue 0x004 (regWrite 0x008 0x15 (regWrite 0x008 0x02 State.reset)) = 0x00000005 := by decide +kernel

/-- V4.3: the fifth read of 17 bytes, and an offset above the window's bits. -/
theorem test_outData :
    regReadValue 0x1020 { State.reset with out := [0xf0] } = 0xf0000000 ∧
    (regReadEffect 0x1020 { State.reset with out := [0xf0] }).out = [] := by decide +kernel

/-! Witnesses: for each statement with hypotheses, a state and operands that meet all of them together. -/

/-- The snapshot of a word, from reset with the operands that `f` sets. -/
def snap (w : Word) (f : State → State) : Snapshot := snapshot w (f State.reset)

/-- A block waiting for its seeder: the generate of V3.7. -/
def waiting (f : State → State) : State :=
  { seededWithSeeder (f State.reset) with seq := .waitSeed (snap 0x212 id) }

/-- The words of 30_encoding.md R96 and R95 at the edges of the opcode list. -/
theorem witness_DecodeIsTotalByTheRule :
    (0x00000801 : Word).extractLsb' 11 21 ≠ 0 ∧ (0x80000001 : Word).extractLsb' 11 21 ≠ 0 ∧
    ((0x00000706 : Word).extractLsb' 11 21 = 0 ∧ ((0x00000706 : Word).extractLsb' 0 8).toNat = 0x06) ∧
    ((0x00000707 : Word).extractLsb' 11 21 = 0 ∧
      ((0x00000707 : Word).extractLsb' 0 8).toNat ∉
        [0x01, 0x02, 0x03, 0x04, 0x05, 0x06, 0x10, 0x11, 0x12, 0x13, 0x14, 0x15]) := by decide

theorem witness_DecodeEncodeAgree :
    (Instr.drbgDestroy ⟨true, true, true⟩).wf = true ∧ decode 0x00000715 = .ok (.drbgDestroy ⟨true, true, true⟩) := by
  decide

theorem witness_StepRunsTheDecodedCommand :
    (running 0x05 id).seq = .run (snap 0x05 id) ∧ (running 0x05 id).EngineTurn ∧
    decode (snap 0x05 id).word = .ok (.ctrInc ⟨false, false, false⟩) ∧
    decodeTableWord 8 0x15 = some (.drbgDestroy ⟨false, false, false⟩) :=
  ⟨rfl, ⟨⟨_, rfl⟩, .inl rfl⟩, by decide, by decide⟩

/-- The engine's turn while the host has operations left. -/
theorem witness_StepRunsTheDecodedCommand_interleaved :
    State.EngineTurn { running 0x05 id with script := [.waitIdle], schedule := [.engine, .host] } :=
  ⟨⟨_, rfl⟩, .inr (by decide)⟩

theorem witness_IllegalWordCompletesWithIllegalCmd :
    (running 0x800 id).seq = .run (snap 0x800 id) ∧ (running 0x800 id).EngineTurn ∧
    (snap 0x800 id).word.extractLsb' 11 21 ≠ 0 ∧ (running 0x16 id).EngineTurn ∧
    ((snap 0x16 id).word.extractLsb' 0 8).toNat ∉
      [0x01, 0x02, 0x03, 0x04, 0x05, 0x06, 0x10, 0x11, 0x12, 0x13, 0x14, 0x15] :=
  ⟨rfl, ⟨⟨_, rfl⟩, .inl rfl⟩, by decide, ⟨⟨_, rfl⟩, .inl rfl⟩, by decide⟩

theorem witness_CmdWriteIsAcceptedOrRejected :
    State.reset.seq = .idle ∧ (waiting id).seq = .waitSeed (snap 0x212 id) ∧
    ((0x714 : Word).extractLsb' 0 8 = 0x14 ∧ (0x714 : Word).extractLsb' 11 21 = 0) ∧
    ¬ ((0x814 : Word).extractLsb' 0 8 = 0x14 ∧ (0x814 : Word).extractLsb' 11 21 = 0) ∧
    ¬ ((0x015 : Word).extractLsb' 0 8 = 0x14 ∧ (0x015 : Word).extractLsb' 11 21 = 0) ∧
    (running 0x05 id).seq = .run (snap 0x05 id) :=
  ⟨rfl, rfl, by decide, by decide, by decide, rfl⟩

theorem witness_CommandRunsInTwoSteps :
    let s := { State.reset with script := [.write 0x008 0x05] }
    s.seq = .idle ∧ s.script = [.write 0x008 0x05] ∧ decode 0x05 = .ok (.ctrInc ⟨false, false, false⟩) :=
  ⟨rfl, rfl, by decide⟩

/-- The waiting block meets the invariant. -/
theorem waiting_inv (script : List HostOp) : ({ waiting id with script := script } : State).Inv where
  uninitClear := fun h => by cases h
  seededCount := fun _ =>
    (show 1 ≤ (waiting id).ctx.rc.toNat ∧ (waiting id).ctx.rc.toNat ≤ Config.reseedCeiling + 1 by decide +kernel)
  noSeeder := fun h => by cases h
  outLength := (show (waiting id).out.length < 2 ^ 32 by decide +kernel)
  noSchedule := fun _ => rfl
  schedule := fun h => by cases h
  running := fun g h => by cases h
  waiting := fun g h => by cases h; exact ⟨rfl, rfl⟩
  waitingGenerate := fun g h => by
    cases h
    exact ⟨rfl, ⟨⟨⟨false, true, false⟩, rfl, by decide⟩, by decide, rfl,
      (show seedTrigger (waiting id).ctx = true by decide +kernel)⟩⟩
  answeredGenerate := fun g h => by cases h

/-- A state away from reset, and one of its steps. -/
theorem witness_InvariantKeptByEveryStep :
    ({ waiting id with script := [.write 0x008 0x14] } : State).Inv ∧
    ∃ t, step { waiting id with script := [.write 0x008 0x14] } = .next t ∧ t.seq ≠ .idle :=
  ⟨waiting_inv _, _, rfl, by decide⟩

theorem witness_StepStopsOnlyWhereTheSpecSays :
    step (waiting id) = .fault .seedNeverAnswered ∧
    step { waiting id with script := [.waitIdle] } = .fault .seedNeverAnswered ∧
    step { running 0x05 id with script := [.narrow .byte 0x004], schedule := [.host] } = .refused .narrowTransfer :=
  ⟨rfl, rfl, rfl⟩

theorem witness_HardwareResetFromAnyState :
    State.HostTurn { running 0x05 id with script := [.reset, .waitIdle], schedule := [.host] } .reset [.waitIdle] :=
  ⟨rfl, fun _ => rfl⟩

theorem witness_StatusFieldsReadTheState :
    State.reset.ctx.state = .uninit ∧
    ((seededAt (2 ^ 48 + 1) State.reset).ctx.state = .seeded ∧
      (seededAt (2 ^ 48 + 1) State.reset).ctx.rc.toNat > 2 ^ 48) ∧
    ((seededAt (2 ^ 48) State.reset).ctx.state = .seeded ∧
      ¬ (seededAt (2 ^ 48) State.reset).ctx.rc.toNat > 2 ^ 48) := by decide

/-- The first and last words of each range of writable registers. -/
theorem witness_OperandWordReadsBack :
    ∀ off ∈ ([0x00C, 0x018, 0x040, 0x06C, 0x080, 0x0DC, 0x100C] : List (BitVec 32)),
      let o := 4 * (off.extractLsb' 2 10).toNat
      (0x00C ≤ o ∧ o ≤ 0x018) ∨ (0x040 ≤ o ∧ o ≤ 0x06C) ∨ (0x080 ≤ o ∧ o ≤ 0x0DC) := by simp

theorem witness_WriteLeavesOtherWordsAlone :
    (0x05C : BitVec 32).extractLsb' 2 10 ≠ (0x060 : BitVec 32).extractLsb' 2 10 ∧
    (0x05C : BitVec 32).extractLsb' 2 10 ≠ 2 := by decide

theorem witness_CmdWriteShowsOnlyInStatus : (0x008 : BitVec 32).extractLsb' 2 10 ≠ 1 := by decide

/-- The first and last offsets of the ranges, and the neighbours that are in none. -/
theorem witness_ReservedAndReadOnlyOffsets :
    (∀ off ∈ ([0x034, 0x03C, 0x0E0, 0x0FC, 0x1F0, 0x1FC, 0x230, 0xFFC] : List (BitVec 32)),
      let o := 4 * (off.extractLsb' 2 10).toNat
      (0x034 ≤ o ∧ o ≤ 0x03C) ∨ (0x0E0 ≤ o ∧ o ≤ 0x0FC) ∨ (0x1F0 ≤ o ∧ o ≤ 0x1FC) ∨ 0x230 ≤ o) ∧
    (∀ off ∈ ([0x000, 0x004, 0x01C, 0x030, 0x070, 0x07C, 0x100, 0x1EC, 0x200, 0x22C] : List (BitVec 32)),
      let o := 4 * (off.extractLsb' 2 10).toNat
      o = 0x000 ∨ o = 0x004 ∨ (0x01C ≤ o ∧ o ≤ 0x030) ∨ (0x070 ≤ o ∧ o ≤ 0x07C) ∨
        (0x100 ≤ o ∧ o ≤ 0x1EC) ∨ (0x200 ≤ o ∧ o ≤ 0x22C)) ∧
    4 * ((0x00A : BitVec 32).extractLsb' 2 10).toNat = 0x008 := by simp

theorem witness_OnlyOutDataReadsHaveAnEffect :
    (0x01C : BitVec 32).extractLsb' 2 10 ≠ 8 ∧ (0x1022 : BitVec 32).extractLsb' 2 10 = 8 := by decide

/-- In IDLE; in RUN with both reads before the Complete. -/
theorem witness_ReadoutReturnsTheOutput :
    let s := { State.reset with out := [1, 2, 3, 4, 5], script := [.read 0x020, .read 0x020] }
    let r := { running 0x05 id with
      out := [1, 2, 3, 4, 5], script := [.read 0x020, .read 0x020], schedule := [.host, .host] }
    s.HostMoves ((s.out.length + 3) / 4) ∧ s.script = (ScriptLine.readout s.out.length).expand ∧
    r.HostMoves ((r.out.length + 3) / 4) ∧ r.script = (ScriptLine.readout r.out.length).expand :=
  ⟨(fun ⟨_, h⟩ => nomatch h), by decide, fun _ => by decide, by decide⟩

/-- Each clause at its longest list. -/
theorem witness_LoadbFillsTheBuffer :
    (∀ n ∈ [32, 16, 48], (List.replicate n (0x5A : Byte)).length % 4 = 0 ∧ (List.replicate n (0x5A : Byte)).length ≤ n) ∧
    (State.withScript [.loadb .keyIn (List.replicate 32 0x5A)] State.reset).script =
      (ScriptLine.loadb .keyIn (List.replicate 32 0x5A)).expand ∧
    (State.withScript [.loadb .ctrIn (List.replicate 16 0x5A)] State.reset).script =
      (ScriptLine.loadb .ctrIn (List.replicate 16 0x5A)).expand ∧
    (State.withScript [.loadb .entIn (List.replicate 48 0x5A)] State.reset).script =
      (ScriptLine.loadb .entIn (List.replicate 48 0x5A)).expand ∧
    (State.withScript [.loadb .adIn (List.replicate 48 0x5A)] State.reset).script =
      (ScriptLine.loadb .adIn (List.replicate 48 0x5A)).expand := by decide

/-- The host's moves, for a whole ENT_IN: in IDLE, in WAIT_SEED (program P3), and in RUN before the Complete. -/
theorem witness_LoadbFillsTheBuffer_moves :
    State.HostMoves 12 State.reset ∧ State.HostMoves 12 (waiting id) ∧
    State.HostMoves 12 { running 0x05 id with schedule := List.replicate 12 .host } :=
  ⟨(fun ⟨_, h⟩ => nomatch h), (fun ⟨_, h⟩ => nomatch h), fun _ => rfl⟩

theorem witness_ShiftRowsRotatesRows : (3 : Nat) < 4 ∧ (0 : Nat) < 4 := by decide

theorem witness_AesExpandCompletes :
    (running 0x01 id).seq = .run (snap 0x01 id) ∧ (59 % 8 ≠ 0 ∧ 59 % 8 ≠ 4 ∧ 8 ≤ 59) ∧ 56 % 8 = 0 ∧ 52 % 8 = 4 :=
  ⟨rfl, by decide, by decide, by decide⟩

theorem witness_RksClearCompletes :
    (running 0x06 id).seq = .run (snap 0x06 id) ∧ 4 * ((0x1EC : BitVec 32).extractLsb' 2 10).toNat = 0x1EC ∧
    4 * ((0x100 : BitVec 32).extractLsb' 2 10).toNat = 0x100 := ⟨rfl, by decide, by decide⟩

theorem witness_KeystreamEncryptsSuccessiveCounters : (16 : Nat) < 17 := by decide

theorem witness_KeystreamSplitsAtWholeBlocks : (16 : Nat) ≤ 33 ∧ 16 % 16 = 0 := by decide

theorem witness_AesCtrCompletes : (running 0x02 id).seq = .run (snap 0x02 id) := rfl

theorem witness_AesCtrZeroivCompletes : (running 0x03 id).seq = .run (snap 0x03 id) := rfl

theorem witness_AesCtrRksCompletes :
    (running 0x04 id).seq = .run (snap 0x04 id) ∧ (snap 0x04 id).rksValid = false ∧
    (snap 0x04 fun s => { s with rksValid := true }).rksValid = true := ⟨rfl, rfl, rfl⟩

theorem witness_StoredScheduleGivesTheKeysStream :
    (running 0x01 id).seq = .run (snap 0x01 id) ∧
    ∃ t u, exec (.aesExpand ⟨false, false, false⟩) (running 0x01 id) = .next t ∧
      exec (.aesCtrRks ⟨false, false, false⟩) (acceptCommand 0x04 { t with keyIn := zeroBytes 32 }) = .next u :=
  ⟨rfl, _, _, rfl, rfl⟩

theorem witness_CtrIncCompletes : (running 0x05 id).seq = .run (snap 0x05 id) := rfl

theorem witness_SeedMaterialXorsTheFirstBytes : (48 : Nat) ≤ 48 ∧ (0 : Nat) ≤ 48 := by decide

/-- ADLEN = 48 and 0 on the side that completes, 49 and 1 without ADV on the other. -/
theorem witness_DrbgSeedCompletes :
    (running 0x110 fun s => { s with adLen := 48 }).seq = .run (snap 0x110 fun s => { s with adLen := 48 }) ∧
    (snap 0x110 fun s => { s with adLen := 48 }).adLen.toNat ≤ 48 ∧ (snap 0x10 id).adLen = 0 ∧
    (snap 0x110 fun s => { s with adLen := 49 }).adLen.toNat > 48 ∧
    (snap 0x10 fun s => { s with adLen := 1 }).adLen ≠ 0 :=
  ⟨rfl, by decide, rfl, by decide, by decide⟩

theorem witness_DrbgReseedCompletes :
    let f := fun s => seededAt 1 { s with adLen := 48 }
    (running 0x111 f).seq = .run (snap 0x111 f) ∧ (running 0x111 f).ctx.state = .seeded ∧
    (snap 0x111 f).adLen.toNat ≤ 48 ∧ (running 0x111 id).ctx.state = .uninit ∧
    (snap 0x111 fun s => seededAt 1 { s with adLen := 49 }).adLen.toNat > 48 :=
  ⟨rfl, rfl, by decide, rfl, by decide⟩

/-- LEN = 65535, RC = 2^48 and RC = RI: the last values that complete. -/
theorem witness_DrbgGenerateCompletes :
    let f := fun s => seededAt (2 ^ 48) { s with len := 65535 }
    (running 0x212 f).seq = .run (snap 0x212 f) ∧ (snap 0x212 f).seedBytes = none ∧
    (running 0x212 f).ctx.state = .seeded ∧ (snap 0x212 f).len.toNat ≤ 65535 ∧
    ¬ ((running 0x212 f).ctx.seederPresent = true ∧ (running 0x212 f).ctx.rc.toNat > (running 0x212 f).ctx.ri.toNat) ∧
    (running 0x212 f).ctx.rc.toNat ≤ 2 ^ 48 :=
  ⟨rfl, rfl, rfl, by decide, by decide, by decide⟩

/-- One state for each clause: unseeded; LEN = 65536; RC = 1 above RI = 0; RC = 2^48 + 1 with no seeder. -/
theorem witness_GenerateChecksInOrder :
    ((running 0x212 id).seq = .run (snap 0x212 id) ∧ (snap 0x212 id).seedBytes = none ∧
      (running 0x212 id).ctx.state = .uninit) ∧
    (snap 0x212 fun s => seededAt 1 { s with len := 65536 }).len.toNat > 65535 ∧
    ((running 0x212 seededWithSeeder).ctx.state = .seeded ∧ (snap 0x212 seededWithSeeder).len.toNat ≤ 65535 ∧
      (running 0x212 seededWithSeeder).ctx.seederPresent = true ∧
      (running 0x212 seededWithSeeder).ctx.rc.toNat > (running 0x212 seededWithSeeder).ctx.ri.toNat) ∧
    ((running 0x212 (seededAt (2 ^ 48 + 1))).ctx.seederPresent = false ∧
      (running 0x212 (seededAt (2 ^ 48 + 1))).ctx.rc.toNat > 2 ^ 48) :=
  ⟨⟨rfl, rfl, rfl⟩, by decide, ⟨rfl, by decide, rfl, by decide⟩, rfl, by decide⟩

theorem witness_SeedResponseReturnsTheGenerateToRun :
    (waiting id).seq = .waitSeed (snap 0x212 id) ∧ (running 0x14 id).seq = .run (snap 0x14 id) := ⟨rfl, rfl⟩

theorem witness_SeedHandshakeReseedsThenGenerates :
    let s : State := { waiting id with script := [.write 0x008 0x14] }
    s.Inv ∧ s.seq = .waitSeed (snap 0x212 id) ∧ (0x14 : Word).extractLsb' 0 8 = 0x14 ∧
    (0x14 : Word).extractLsb' 11 21 = 0 ∧ s.script = [.write 0x008 0x14] :=
  ⟨waiting_inv _, rfl, by decide, by decide, rfl⟩

theorem witness_GenerateOutputDependsOnKeyCounterLength :
    let f := fun s => seededAt 1 { s with len := 5 }
    let f' := fun s => seededAt 7 { s with len := 6, keyIn := keyK00 }
    (running 0x212 f).seq = .run (snap 0x212 f) ∧ (running 0x212 f').seq = .run (snap 0x212 f') ∧
    (running 0x212 f).ctx.k = (running 0x212 f').ctx.k ∧ (running 0x212 f).ctx.v = (running 0x212 f').ctx.v ∧
    (∃ t, exec (.drbgGenerate ⟨false, true, false⟩) (running 0x212 f) = .next t ∧ t.seq = .idle ∧ t.err = .ok) ∧
    (∃ t, exec (.drbgGenerate ⟨true, true, true⟩) (running 0x212 f') = .next t ∧ t.seq = .idle ∧ t.err = .ok) ∧
    (snap 0x212 f).len.toNat ≤ (snap 0x212 f').len.toNat :=
  ⟨rfl, rfl, rfl, rfl, ⟨_, rfl, rfl, rfl⟩, ⟨_, rfl, rfl, rfl⟩, by decide⟩

theorem witness_DrbgConfigSeederCompletes :
    (running 0x413 id).seq = .run (snap 0x413 id) ∧
    decode 0x413 = .ok (.drbgConfigSeeder ⟨false, false, true⟩) ∧
    decode 0x013 = .ok (.drbgConfigSeeder ⟨false, false, false⟩) := ⟨rfl, by decide, by decide⟩

theorem witness_DrbgDestroyCompletes :
    (running 0x15 id).seq = .run (snap 0x15 id) ∧ 4 * ((0x22C : BitVec 32).extractLsb' 2 10).toNat = 0x22C ∧
    4 * ((0x200 : BitVec 32).extractLsb' 2 10).toNat = 0x200 := ⟨rfl, by decide, by decide⟩

/-- A seeded context destroyed, and the same by reset: RC changes from 1 to 0. -/
theorem witness_ReseedCounterChangesOnlyAsListed :
    let s : State := { waiting id with script := [.reset] }
    s.Inv ∧ ∃ t, step s = .next t ∧ t.ctx.rc ≠ s.ctx.rc :=
  ⟨waiting_inv _, _, rfl, by decide⟩

theorem witness_FailedCommandCommitsNothing :
    ∃ t, exec (.aesCtrRks ⟨false, false, false⟩) (running 0x04 id) = .next t ∧ t.seq = .idle ∧ t.err ≠ .ok :=
  ⟨_, rfl, rfl, by decide⟩

theorem witness_CommandsWriteOnlyTheirResults :
    ∃ t, exec (.ctrInc ⟨false, false, false⟩) (running 0x05 id) = .next t ∧
      writesOut (.ctrInc ⟨false, false, false⟩) = false ∧ writesSchedule (.ctrInc ⟨false, false, false⟩) = false ∧
      writesKeyState (.ctrInc ⟨false, false, false⟩) = false ∧
      writesSeederSetting (.ctrInc ⟨false, false, false⟩) = false ∧
      writesCtxState (.ctrInc ⟨false, false, false⟩) = false ∧
      writesCtrOut (.rksClear ⟨false, false, false⟩) = false := ⟨_, rfl, rfl, rfl, rfl, rfl, rfl, rfl⟩

/-- A read of OUT_DATA, and a write of an operand register. -/
theorem witness_ResultsChangeOnlyAtComplete :
    let s : State := { running 0x05 id with script := [.read 0x020], schedule := [.host] }
    let u : State := { running 0x05 id with script := [.write 0x060 1], schedule := [.host] }
    (s.HostTurn (.read 0x020) [] ∧ (0x020 : BitVec 32).extractLsb' 2 10 = 8 ∧ ∃ t, step s = .next t) ∧
    (u.HostTurn (.write 0x060 1) [] ∧ (¬ ∃ off, HostOp.write 0x060 1 = .read off ∧ off.extractLsb' 2 10 = 8) ∧
      ∃ t, step u = .next t) :=
  ⟨⟨⟨rfl, fun _ => rfl⟩, by decide, _, rfl⟩, ⟨rfl, fun _ => rfl⟩, (fun ⟨_, h, _⟩ => nomatch h), _, rfl⟩

theorem witness_RunningCommandIgnoresOperandWrites :
    (running 0x05 id).seq = .run (snap 0x05 id) ∧ (0x060 : BitVec 32).extractLsb' 2 10 ≠ 2 ∧
    ∃ t, exec (.ctrInc ⟨false, false, false⟩) (running 0x05 id) = .next t := ⟨rfl, by decide, _, rfl⟩

/-- Two snapshots that differ in KEY_IN, which CTR_INC does not read. -/
theorem witness_CommandsReadOnlyTheirOperands :
    let i := Instr.ctrInc ⟨false, false, false⟩
    operandsAgree i (snap 0x05 id) (snap 0x05 fun s => { s with keyIn := keyK00 }) ∧
    (∃ t, exec i { State.reset with seq := .run (snap 0x05 id) } = .next t) ∧
    ∃ t, exec i { State.reset with seq := .run (snap 0x05 fun s => { s with keyIn := keyK00 }) } = .next t :=
  ⟨rfl, ⟨_, rfl⟩, _, rfl⟩

theorem witness_SeedWaitEndsOnlyByResponseOrReset :
    (waiting id).seq = .waitSeed (snap 0x212 id) ∧
    (∃ t, step { waiting id with script := [.waitSeed] } = .next t) ∧
    (∃ t, step { waiting id with script := [.write 0x008 0x714] } = .next t) ∧
    ∃ t, step { waiting id with script := [.reset] } = .next t := ⟨rfl, ⟨_, rfl⟩, ⟨_, rfl⟩, _, rfl⟩

theorem witness_RunningCommandLeavesRun : (running 0x05 id).seq = .run (snap 0x05 id) := rfl

theorem witness_MarksAreNeverCleared :
    ∃ t, step { waiting id with script := [.reset], marks := [.overrun] } = .next t ∧ t.marks = [.overrun] :=
  ⟨_, rfl, rfl⟩

/-- Two blocks; the first byte of the first window. -/
theorem witness_InstancesShareNoState :
    let p : Platform := ⟨[State.reset, State.reset]⟩
    (1 : Nat) ≠ 0 ∧ p.step 0 = .next p ∧ p.route (Config.windowBase 0) = some (0, 0) ∧
    (p.busWrite (Config.windowBase 0) 0).isSome = true ∧ (p.busRead (Config.windowBase 0)).isSome = true := by
  have h : Platform.route ⟨[State.reset, State.reset]⟩ (Config.windowBase 0) = some (0, 0) := by
    simp [Platform.route, routeFrom, Config.windowBytes]
  refine ⟨by decide, rfl, h, ?_, ?_⟩
  · simp only [Platform.busWrite, h]; rfl
  · simp only [Platform.busRead, h]; rfl

end Sys2Proof.Tests
end

section
/-! SUPPORT. Where the rows of the register map lie in the window (10_state.md R22, R23), and O18. -/

namespace Sys2Proof.Machine

theorem regRow_name_of_mem : ∀ row ∈ regMap, regRow row.name = row := by decide

/-- A located offset lies in the row of its register, at the located word. -/
theorem wordIndex_of_locate {off : BitVec 32} {r : RegName} {k : Nat} (h : locate off = some (r, k)) :
    wordIndex off = (regRow r).base / 4 + k ∧ k < (regRow r).words := by
  unfold locate at h
  simp only [Option.map_eq_some_iff, Prod.mk.injEq] at h
  obtain ⟨row, hfind, rfl, rfl⟩ := h
  have hin := List.find?_some hfind
  rw [decide_eq_true_eq] at hin
  rw [regRow_name_of_mem row (List.mem_of_find?_eq_some hfind)]
  omega

/-- The rows that are not read-only fill three ranges of the window. -/
theorem range_of_not_readOnly (r : RegName) (h : (regRow r).access ≠ .ro) :
    let first := (regRow r).base / 4
    let past := first + (regRow r).words
    (2 ≤ first ∧ past ≤ 7) ∨ (16 ≤ first ∧ past ≤ 28) ∨ (32 ≤ first ∧ past ≤ 56) := by
  revert h
  cases r <;> decide

/-- The word offsets in no row of the map. -/
theorem locate_reserved {off : BitVec 32}
    (h : (13 ≤ wordIndex off ∧ wordIndex off ≤ 15) ∨ (56 ≤ wordIndex off ∧ wordIndex off ≤ 63) ∨
      (124 ≤ wordIndex off ∧ wordIndex off ≤ 127) ∨ 140 ≤ wordIndex off) :
    locate off = none := by
  simp only [locate, regMap, Option.map_eq_none_iff, List.find?_eq_none, decide_eq_true_eq,
    List.forall_mem_cons, List.not_mem_nil, false_imp_iff, implies_true, and_true]
  omega

theorem locate_cmd {off : BitVec 32} (h : wordIndex off = 2) : locate off = some (.cmd, 0) := by
  simp [locate, h, regMap, List.find?]

theorem locate_status {off : BitVec 32} (h : wordIndex off = 1) : locate off = some (.status, 0) := by
  simp [locate, h, regMap, List.find?]

theorem writeReg_of_readOnly {r : RegName} (k : Nat) (w : Word) (s : State) (h : (regRow r).access = .ro) :
    writeReg r k w s = s := by
  cases r with
  | cap | status | outAvail | outData | drbgRcLo | drbgRcHi | drbgRiLo | drbgRiHi | ctrOut | rks | drbgK
  | drbgV => rfl
  | cmd | len | adLen | riLo | riHi | keyIn | ctrIn | entIn | adIn => exact absurd h (by decide)

/-- Outside the ranges of the rows that are not read-only, every write is ignored. -/
theorem regWrite_of_readOnly_range {off : BitVec 32} (w : Word) (s : State)
    (h : ¬ ((2 ≤ wordIndex off ∧ wordIndex off < 7) ∨ (16 ≤ wordIndex off ∧ wordIndex off < 28) ∨
      (32 ≤ wordIndex off ∧ wordIndex off < 56))) :
    regWrite off w s = s := by
  unfold regWrite
  split
  · rename_i r k hl
    obtain ⟨hindex, hk⟩ := wordIndex_of_locate hl
    refine writeReg_of_readOnly k w s (by_contra fun hrw => ?_)
    have hrange := range_of_not_readOnly r hrw
    dsimp only at hrange
    omega
  · rfl

/-- A read of a reserved offset returns 0 and has no effect. -/
theorem regRead_of_locate_none {off : BitVec 32} (s : State) (h : locate off = none) :
    regReadValue off s = 0 ∧ regReadEffect off s = s := by
  simp [regReadValue, regReadEffect, h]

theorem regWrite_cmd {off : BitVec 32} (w : Word) (s : State) (h : wordIndex off = 2) :
    regWrite off w s = presentCommand w s := by
  simp only [regWrite, locate_cmd h, writeReg]

theorem regReadValue_status {off : BitVec 32} (s : State) (h : wordIndex off = 1) :
    regReadValue off s = statusWord s := by
  simp only [regReadValue, locate_status h, readReg]

/-- A read of CMD returns 0 and has no effect. -/
theorem regRead_cmd {off : BitVec 32} (s : State) (h : wordIndex off = 2) :
    regReadValue off s = 0 ∧ regReadEffect off s = s := by
  simp [regReadValue, regReadEffect, locate_cmd h, readReg]

/-- Settles O18: the reserved offsets are in no row of the map, and the others lie outside the rows the host may
write. -/
theorem reservedAndReadOnlyOffsets : Obligations.ReservedAndReadOnlyOffsets := by
  intro off v s o
  have ho : o = 4 * wordIndex off := rfl
  refine ⟨fun h => ?_, fun h => regWrite_of_readOnly_range v s (by omega), fun h => regRead_cmd s (by omega)⟩
  obtain ⟨hvalue, heffect⟩ := regRead_of_locate_none s (locate_reserved (off := off) (by omega))
  exact ⟨hvalue, heffect, regWrite_of_readOnly_range v s (by omega)⟩

end Sys2Proof.Machine
end

section
/-! SUPPORT. The results a host access leaves alone (10_state.md R40, R43), and O54. -/

namespace Sys2Proof.Machine

/-- The word an offset selects, as a number and as the field of the offset. -/
theorem wordIndex_eq_toNat_iff {off : BitVec 32} (n : BitVec 10) :
    wordIndex off = n.toNat ↔ off.extractLsb' 2 10 = n :=
  BitVec.toNat_inj

/-- The pieces of the block that only a Complete or a reset writes: the context, RKS, RKS_VALID, CTR_OUT and ERR. -/
def results (s : State) : DrbgContext × Bytes 240 × Bool × Bytes 16 × ResultCode :=
  (s.ctx, s.rks, s.rksValid, s.ctrOut, s.err)

theorem results_eq_iff {s t : State} :
    results t = results s ↔
      t.ctx = s.ctx ∧ t.rks = s.rks ∧ t.rksValid = s.rksValid ∧ t.ctrOut = s.ctrOut ∧ t.err = s.err := by
  simp [results]

/-- A host write presents a command word, or leaves SEQ, OUT and the results alone. -/
theorem regWrite_presents_or_frames (off : BitVec 32) (w : Word) (s : State) :
    regWrite off w s = presentCommand w s ∨
    ((regWrite off w s).seq = s.seq ∧ (regWrite off w s).out = s.out ∧ results (regWrite off w s) = results s) := by
  have heffect := regWrite_effect off w s
  generalize regWrite off w s = t at heffect ⊢
  cases heffect with
  | presented h => exact .inl rfl
  | ignored | len | adLen | riLo | riHi | keyIn | ctrIn | entIn | adIn => exact .inr ⟨rfl, rfl, rfl⟩

theorem presentCommand_frame (w : Word) (s : State) :
    (presentCommand w s).out = s.out ∧ results (presentCommand w s) = results s := by
  rcases presentCommand_cases w s with ⟨-, h⟩ | ⟨g, -, -, h⟩ | ⟨-, h⟩ <;> rw [h] <;> exact ⟨rfl, rfl⟩

@[simp] theorem regWrite_out (off : BitVec 32) (w : Word) (s : State) : (regWrite off w s).out = s.out := by
  rcases regWrite_presents_or_frames off w s with h | ⟨-, hout, -⟩
  · rw [h, (presentCommand_frame w s).1]
  · exact hout

@[simp] theorem results_regWrite (off : BitVec 32) (w : Word) (s : State) :
    results (regWrite off w s) = results s := by
  rcases regWrite_presents_or_frames off w s with h | ⟨-, -, hres⟩
  · rw [h, (presentCommand_frame w s).2]
  · exact hres

/-- A host read leaves SEQ and the results alone. -/
theorem hostRead_frame (off : BitVec 32) (s : State) :
    (hostRead off s).seq = s.seq ∧ results (hostRead off s) = results s := by
  rcases regReadEffect_cases off s with h | h <;> simp [hostRead, h, results]

/-- A host read of OUT_DATA pops up to four bytes of OUT; every other read leaves OUT alone. -/
theorem hostRead_out (off : BitVec 32) (s : State) :
    (hostRead off s).out = if wordIndex off = 8 then s.out.drop 4 else s.out := by
  simp only [hostRead, regReadEffect_eq]
  split <;> rfl

/-- A move of the host that is no reset leaves the results alone. -/
theorem HostEffect.results_eq {op : HostOp} {rest : List HostOp} {s t : State} (h : HostEffect op rest s t)
    (hop : op ≠ .reset) : results t = results s := by
  cases h with
  | read off _ => exact (hostRead_frame off _).2
  | write off w _ => exact results_regWrite off w _
  | pollAgain | pollEnd => rfl
  | reset h => exact absurd h hop

/-- A move of the host that is neither a reset nor a read of OUT_DATA leaves OUT alone. -/
theorem HostEffect.out_eq {op : HostOp} {rest : List HostOp} {s t : State} (h : HostEffect op rest s t)
    (hop : op ≠ .reset) (hread : ¬ ∃ off, op = .read off ∧ wordIndex off = 8) : t.out = s.out := by
  cases h with
  | read off h => rw [hostRead_out, if_neg fun hoff => hread ⟨off, h, hoff⟩]
  | write off w _ => exact regWrite_out off w _
  | pollAgain | pollEnd => rfl
  | reset h => exact absurd h hop

/-- Settles O54: by the effect of the host's move on the ticked state, which has the results and OUT of the state. -/
theorem resultsChangeOnlyAtComplete : Obligations.ResultsChangeOnlyAtComplete := by
  intro s s' op rest hturn hop hstep
  rw [step_hostTurn hturn] at hstep
  have heffect := hostStep_next hstep
  have houtData : ∀ off, wordIndex off = 8 ↔ off.extractLsb' 2 10 = 8 := fun _ => wordIndex_eq_toNat_iff 8
  refine ⟨results_eq_iff.mp (heffect.results_eq hop), ?_,
    fun hread => heffect.out_eq hop (by simpa [houtData] using hread)⟩
  rintro off rfl hoff
  cases hstep
  exact (hostRead_out off _).trans (if_pos ((houtData off).mpr hoff))

end Sys2Proof.Machine
end

section
/-! SUPPORT. The fields of STATUS and the values after reset (10_state.md R25, R39, R44), with O14 and O12. -/

namespace Sys2Proof.Machine

theorem statusWord_bits (s : State) :
    (statusWord s).getLsbD 0 = busy s ∧ (statusWord s).getLsbD 1 = seedReq s ∧
    (statusWord s).getLsbD 2 = s.ovr ∧ (statusWord s).getLsbD 3 = s.rksValid ∧
    (statusWord s).getLsbD 10 = s.ctx.seederPresent := by
  simp only [statusWord, BitVec.getLsbD_append]
  simp

theorem statusWord_fields (s : State) :
    (statusWord s).extractLsb' 4 4 = s.err.code ∧ (statusWord s).extractLsb' 8 2 = dstate s.ctx ∧
    (statusWord s).extractLsb' 11 21 = 0 := by
  refine ⟨?_, ?_, ?_⟩ <;>
    (apply BitVec.eq_of_getLsbD_eq
     intro i hi
     simp only [statusWord, BitVec.getLsbD_extractLsb', BitVec.getLsbD_append]
     interval_cases i <;> simp)

theorem busy_iff {s : State} : busy s = true ↔ s.seq ≠ .idle := by
  cases h : s.seq <;> simp [busy, h]

theorem seedReq_iff {s : State} : seedReq s = true ↔ ∃ g, s.seq = .waitSeed g := by
  cases h : s.seq <;> simp [seedReq, h]

theorem exhausted_iff {rc : BitVec 64} : exhausted rc = true ↔ rc.toNat > 2 ^ 48 := by
  simp [exhausted, Config.reseedCeiling]

theorem dstate_of_uninit {c : DrbgContext} (h : c.state = .uninit) : dstate c = 0 := by
  simp [dstate, h]

theorem dstate_of_seeded {c : DrbgContext} (h : c.state = .seeded) :
    dstate c = if c.rc.toNat > 2 ^ 48 then 2 else 1 := by
  simp [dstate, h, exhausted_iff]

/-- DSTATE 3 never occurs (10_state.md R39). -/
theorem dstate_ne_three (c : DrbgContext) : dstate c ≠ 3 := by
  cases h : c.state with
  | uninit => rw [dstate_of_uninit h]; decide
  | seeded => rw [dstate_of_seeded h]; split <;> decide

/-- Settles O14: field by field of the STATUS word, DSTATE by the state and the counter of the context. -/
theorem statusFieldsReadTheState : Obligations.StatusFieldsReadTheState := by
  intro s w
  obtain ⟨hbusy, hreq, hovr, hvalid, hpr⟩ := statusWord_bits s
  obtain ⟨herr, hdstate, hreserved⟩ := statusWord_fields s
  simp only [w, regReadValue_status s (off := 0x004) (by decide), hbusy, hreq, hovr, hvalid, hpr, herr, hdstate,
    hreserved]
  refine ⟨busy_iff, seedReq_iff, trivial, trivial, ?_, dstate_of_uninit, fun h hx => ?_, fun h hx => ?_,
    dstate_ne_three _, trivial, trivial⟩
  · cases s.err <;> rfl
  · rw [dstate_of_seeded h, if_pos hx]
  · rw [dstate_of_seeded h, if_neg hx]

/-- Settles O12: every register of the reset state by its value, and the CMD write by its Accept in IDLE. -/
theorem resetLeavesTheTable : Obligations.ResetLeavesTheTable := by
  have hzero : ∀ n i, byteAt (zeroBytes n) i = 0 := byteAt_zeroBytes
  have hcmd : ∀ w, regWrite 0x008 w State.reset = { State.reset with seq := .run (snapshot w State.reset) } :=
    fun w => regWrite_cmd w State.reset (by decide)
  exact ⟨rfl, by decide, by decide, rfl, rfl, rfl, rfl, rfl, by decide, hzero 32, hzero 16, hzero 16, hzero 48,
    hzero 48, hzero 240, rfl, rfl, hzero 32, hzero 16, rfl, by decide, rfl, (fun _ h => nomatch h), hcmd⟩

end Sys2Proof.Machine
end

section
/-! SUPPORT. The engine's step on a decoded word, laid by a CMD write or by `withFetchWord`, with O5 and O8. -/

namespace Sys2Proof.Machine

/-- A CMD write at the host's turn in IDLE is accepted. -/
theorem step_host_cmdWrite {s : State} {w : Word} {rest : List HostOp} (h : s.HostTurn (.write 0x008 w) rest)
    (hidle : s.seq = .idle) : step s = .next (acceptCommand w { tick s with script := rest }) := by
  rw [step_hostTurn h, hostStep, regWrite_cmd w _ (by decide)]
  simp [presentCommand, hidle]

theorem engineStep_of_decode {s : State} {g : Snapshot} {i : Instr} (h : s.seq = .run g)
    (hd : decode g.word = .ok i) : engineStep s = exec i s := by
  simp [engineStep, h, hd]

/-- At the engine's turn a word that decodes is performed on the ticked state. -/
theorem step_of_decode {s : State} {g : Snapshot} {i : Instr} (hseq : s.seq = .run g) (hturn : s.EngineTurn)
    (hd : decode g.word = .ok i) : step s = exec i (tick s) := by
  rw [step_engineTurn hturn, engineStep_of_decode (s := tick s) hseq hd]

theorem core_step_eq (s : State) : Sys2Proof.core.step s = step s := rfl

theorem run_one (s : State) : Host.Core.run Sys2Proof.core 1 s = step s := by
  simp only [Host.Core.run, core_step_eq]
  cases step s <;> rfl

theorem run_succ_of_next {s t : State} (n : Nat) (h : step s = .next t) :
    Host.Core.run Sys2Proof.core (n + 1) s = Host.Core.run Sys2Proof.core n t := by
  simp only [Host.Core.run, core_step_eq, h]

theorem decode_of_decodeTableWord {nbits w : Nat} {i : Instr} (h : decodeTableWord nbits w = some i) :
    decode (tableWord nbits w) = .ok i := by
  unfold decodeTableWord at h
  split at h
  · cases hd : decode (tableWord nbits w) with
    | ok j => simpa [hd, Except.toOption] using h
    | error e => simp [hd, Except.toOption] at h
  · cases h

theorem withCommandWord_engineTurn (w : Word) (s : State) : (withCommandWord w s).EngineTurn := by
  refine ⟨⟨_, rfl⟩, ?_⟩
  cases hs : s.script <;> simp [withCommandWord, hs]

theorem tick_withCommandWord (w : Word) (s : State) :
    tick (withCommandWord w s) = { s with
      seq := .run (snapshot w s), ovr := false,
      schedule := if s.script = [] then s.schedule.tail else s.schedule } := by
  cases hs : s.script <;> simp [tick, withCommandWord, acceptCommand, hs]

/-- Settles O5: at the engine's turn the decoded command is performed on the ticked state, and a word laid by
`withFetchWord` is at the engine's turn. -/
theorem stepRunsTheDecodedCommand : Obligations.StepRunsTheDecodedCommand := by
  refine ⟨fun s g i hseq hturn hd => step_of_decode hseq hturn hd, fun s nbits w i h => ?_⟩
  exact ⟨_, step_of_decode rfl (withCommandWord_engineTurn _ s) (decode_of_decodeTableWord h),
    tick_withCommandWord _ s⟩

/-- Settles O8: the host's step accepts the word, and the script used up gives the engine the next one. -/
theorem commandRunsInTwoSteps : Obligations.CommandRunsInTwoSteps := by
  intro s w i hidle hscript hd
  have hturn : s.HostTurn (.write 0x008 w) [] := ⟨hscript, fun ⟨g, hg⟩ => by simp [hidle] at hg⟩
  rw [run_succ_of_next 1 (step_host_cmdWrite hturn hidle), run_one]
  exact step_of_decode rfl ⟨⟨_, rfl⟩, .inl rfl⟩ hd

end Sys2Proof.Machine
end

section
/-! SUPPORT. The invariant piece by piece of the state, what keeps each piece, and O9. -/

namespace Sys2Proof.Machine

/-! The length of a keystream. -/

theorem scalarLoop_length_le (rk : Schedule) (fuel : Nat) :
    ∀ (c : Bytes 16) (rem : Nat), (scalarLoop rk fuel c rem).1.length ≤ rem := by
  induction fuel with
  | zero => exact fun _ _ => Nat.zero_le _
  | succ fuel ih =>
      intro c rem
      rw [scalarLoop]
      split
      · exact Nat.zero_le _
      · have hrest := ih (inc128 c) (rem - min 16 rem)
        simp only [List.length_append, List.length_take]
        omega

theorem group4_length (rk : Schedule) (c : Bytes 16) : (group4 rk c).1.length = Config.groupBytes := by
  simp [group4, Config.groupBytes]

theorem engineLoop_length_le (rk : Schedule) (fuel : Nat) :
    ∀ (c : Bytes 16) (rem : Nat), (engineLoop rk fuel c rem).1.length ≤ rem := by
  induction fuel with
  | zero => exact fun c rem => scalarLoop_length_le rk _ c rem
  | succ fuel ih =>
      intro c rem
      rw [engineLoop]
      split
      · have hrest := ih (group4 rk c).2 (rem - Config.groupBytes)
        have hgroup := group4_length rk c
        simp only [List.length_append]
        omega
      · exact scalarLoop_length_le rk _ c rem

theorem engineKeystream_length_le (rk : Schedule) (c : Bytes 16) (l : Nat) :
    (engineKeystream rk c l).1.length ≤ l :=
  engineLoop_length_le rk _ c l

/-! The invariant, by the pieces of the state it speaks of. -/

/-- I-b, I-c and I-d (10_state.md R41): what `State.Inv` says of the context alone. -/
structure DrbgContext.Inv (c : DrbgContext) : Prop where
  uninitClear : c.state = .uninit → c.rc = 0 ∧ c.k = zeroBytes 32 ∧ c.v = zeroBytes 16
  seededCount : c.state = .seeded → 1 ≤ c.rc.toNat ∧ c.rc.toNat ≤ Config.reseedCeiling + 1
  noSeeder : c.seederPresent = false → c.ri = Config.noSeederInterval

/-- What `State.Inv` says of RKS and RKS_VALID (10_state.md R36). -/
def StoredSchedule (rks : Bytes 240) : Bool → Prop
  | false => rks = zeroBytes 240
  | true => ∃ key, rks = keySchedule key

/-- What `State.Inv` says of a running or waiting command, given RKS, RKS_VALID and the context. -/
def Seq.Inv (rks : Bytes 240) (valid : Bool) (c : DrbgContext) : Seq → Prop
  | .idle => True
  | .run g => (g.rks = rks ∧ g.rksValid = valid) ∧ (g.seedBytes ≠ none → PendingGenerate g c)
  | .waitSeed g => (g.rks = rks ∧ g.rksValid = valid) ∧ g.seedBytes = none ∧ PendingGenerate g c

/-- The invariant, piece by piece of the state. -/
theorem State.inv_iff {s : State} :
    s.Inv ↔ s.ctx.Inv ∧ s.out.length < 2 ^ 32 ∧ StoredSchedule s.rks s.rksValid ∧
      s.seq.Inv s.rks s.rksValid s.ctx := by
  constructor
  · intro h
    refine ⟨⟨h.uninitClear, h.seededCount, h.noSeeder⟩, h.outLength, ?_, ?_⟩
    · cases hv : s.rksValid with
      | false => exact h.noSchedule hv
      | true => exact h.schedule hv
    · cases hs : s.seq with
      | idle => trivial
      | run g => exact ⟨h.running g hs, h.answeredGenerate g hs⟩
      | waitSeed g => exact ⟨h.waiting g hs, h.waitingGenerate g hs⟩
  · rintro ⟨hctx, hout, hrks, hseq⟩
    exact {
      uninitClear := hctx.uninitClear
      seededCount := hctx.seededCount
      noSeeder := hctx.noSeeder
      outLength := hout
      noSchedule := fun hv => by rwa [hv] at hrks
      schedule := fun hv => by rwa [hv] at hrks
      running := fun g hs => by rw [hs] at hseq; exact hseq.1
      waiting := fun g hs => by rw [hs] at hseq; exact hseq.1
      waitingGenerate := fun g hs => by rw [hs] at hseq; exact hseq.2
      answeredGenerate := fun g hs => by rw [hs] at hseq; exact hseq.2 }

/-- A move that leaves the results alone and does not add to OUT has the clauses on SEQ to keep. -/
theorem State.Inv.of_results {s t : State} (h : s.Inv) (hres : results t = results s)
    (hout : t.out.length ≤ s.out.length) (hseq : t.seq.Inv s.rks s.rksValid s.ctx) : t.Inv := by
  obtain ⟨hctx, hrks, hvalid, -, -⟩ := results_eq_iff.mp hres
  obtain ⟨hc, ho, hr, -⟩ := State.inv_iff.mp h
  rw [State.inv_iff, hctx, hrks, hvalid]
  exact ⟨hc, hout.trans_lt ho, hr, hseq⟩

/-- The invariant speaks of SEQ, OUT and the results alone. -/
theorem State.Inv.of_same_seq {s t : State} (h : s.Inv) (hres : results t = results s)
    (hout : t.out.length ≤ s.out.length) (hseq : t.seq = s.seq) : t.Inv := by
  obtain ⟨-, -, -, hs⟩ := State.inv_iff.mp h
  exact h.of_results hres hout (hseq ▸ hs)

/-! The host's moves keep the invariant. -/

theorem presentCommand_inv (w : Word) {s : State} (h : s.Inv) : (presentCommand w s).Inv := by
  obtain ⟨hout, hres⟩ := presentCommand_frame w s
  refine h.of_results hres (by rw [hout]) ?_
  obtain ⟨-, -, -, hs⟩ := State.inv_iff.mp h
  rcases presentCommand_cases w s with ⟨-, heq⟩ | ⟨g, hg, -, heq⟩ | ⟨-, heq⟩ <;> rw [heq]
  · exact ⟨⟨rfl, rfl⟩, fun hsome => absurd rfl hsome⟩
  · rw [hg] at hs
    obtain ⟨hcopy, -, ⟨hcommand, hlength, hseeded, htrigger⟩⟩ := hs
    exact ⟨hcopy, fun _ => ⟨hcommand, hlength, hseeded, htrigger⟩⟩
  · exact hs

theorem regWrite_inv (off : BitVec 32) (w : Word) {s : State} (h : s.Inv) : (regWrite off w s).Inv := by
  rcases regWrite_presents_or_frames off w s with heq | ⟨hseq, hout, hres⟩
  · rw [heq]
    exact presentCommand_inv w h
  · exact h.of_same_seq hres (by rw [hout]) hseq

theorem hostRead_inv (off : BitVec 32) {s : State} (h : s.Inv) : (hostRead off s).Inv := by
  obtain ⟨hseq, hres⟩ := hostRead_frame off s
  refine h.of_same_seq hres ?_ hseq
  rw [hostRead_out]
  split
  · simp
  · exact le_rfl

theorem cleared_inv : DrbgContext.cleared.Inv :=
  ⟨fun _ => ⟨rfl, rfl, rfl⟩, (fun h => nomatch h), fun _ => rfl⟩

theorem hardwareReset_inv (s : State) : (hardwareReset s).Inv :=
  State.inv_iff.mpr ⟨cleared_inv, by simp [State.reset], rfl, trivial⟩

theorem HostEffect.inv {op : HostOp} {rest : List HostOp} {s t : State} (h : HostEffect op rest s t) (hs : s.Inv) :
    t.Inv := by
  have hrest : ({ s with script := rest } : State).Inv := hs.of_same_seq rfl le_rfl rfl
  cases h with
  | read off _ => exact hostRead_inv off hrest
  | write off w _ => exact regWrite_inv off w hrest
  | pollAgain | pollEnd => exact hs.of_same_seq rfl le_rfl rfl
  | reset => exact hardwareReset_inv _

/-! The engine's step keeps the invariant. -/

/-- A command that has ended meets the invariant if the context, OUT and RKS it leaves do. -/
theorem finish_inv (code : ResultCode) {s : State} (hctx : s.ctx.Inv) (hout : s.out.length < 2 ^ 32)
    (hrks : StoredSchedule s.rks s.rksValid) : (finish code s).Inv :=
  State.inv_iff.mpr ⟨hctx, hout, hrks, trivial⟩

theorem seededContext_inv {c : DrbgContext} (hstate : c.state = .seeded)
    (hcount : 1 ≤ c.rc.toNat ∧ c.rc.toNat ≤ Config.reseedCeiling + 1)
    (hri : c.seederPresent = false → c.ri = Config.noSeederInterval) : c.Inv :=
  ⟨fun h => by simp [hstate] at h, fun _ => hcount, hri⟩

/-- The counter after a generate that was not exhausted (42_drbg.md R226). -/
theorem succ_count_bounds {rc : BitVec 64} (h : exhausted rc = false) :
    1 ≤ (rc + 1).toNat ∧ (rc + 1).toNat ≤ Config.reseedCeiling + 1 := by
  have hle : ¬ rc.toNat > 2 ^ 48 := fun hgt => by simp [exhausted_iff.mpr hgt] at h
  have hceiling : Config.reseedCeiling = 2 ^ 48 := rfl
  have hsucc : (rc + 1).toNat = rc.toNat + 1 := by bv_omega
  omega

theorem one_count_bounds : 1 ≤ (1 : BitVec 64).toNat ∧ (1 : BitVec 64).toNat ≤ Config.reseedCeiling + 1 := by
  decide

/-- Every command keeps the invariant. -/
theorem CommandEffect.inv {i : Instr} {s t : State} {g : Snapshot} (h : CommandEffect i s g t) (hs : s.Inv)
    (hg : s.seq = .run g) (hd : decode g.word = .ok i) : t.Inv := by
  obtain ⟨hctx, hout, hrks, hseq⟩ := State.inv_iff.mp hs
  have hlen : g.len.toNat < 2 ^ 32 := g.len.isLt
  cases h with
  | failed code _ => exact finish_inv code hctx hout hrks
  | schedule rks valid heffect =>
      refine finish_inv .ok hctx hout ?_
      rcases heffect with ⟨_, -, rfl, rfl⟩ | ⟨_, -, rfl, rfl⟩
      · exact ⟨g.keyIn, rfl⟩
      · rfl
  | stream rk c _ =>
      exact finish_inv .ok hctx ((engineKeystream_length_le rk c g.len.toNat).trans_lt hlen) hrks
  | increment _ => exact finish_inv .ok hctx hout hrks
  | seeded c _ hc =>
      obtain ⟨hstate, hrc, hri, -⟩ := hc
      exact finish_inv .ok (seededContext_inv hstate (hrc ▸ one_count_bounds) fun _ => hri) hout hrks
  | reseeded k v _ hstate =>
      exact finish_inv .ok (seededContext_inv hstate one_count_bounds hctx.noSeeder) hout hrks
  | generated out k v rc0 _ hl hrc hcheck =>
      have hstate : s.ctx.state = .seeded := by
        rcases hcheck with ⟨-, -, hseeded, -⟩ | ⟨hanswered, -⟩
        · exact hseeded
        · exact (hs.answeredGenerate g hg hanswered).seeded
      exact finish_inv .ok (seededContext_inv hstate (succ_count_bounds hrc) hctx.noSeeder) (hl.trans_lt hlen) hrks
  | asked hcommand hnone hstate hl htrigger =>
      obtain ⟨f, rfl, hf⟩ := hcommand
      rw [hg] at hseq
      exact State.inv_iff.mpr ⟨hctx, hout, hrks, hseq.1, hnone, ⟨⟨f, hf, hd⟩, hl, hstate, htrigger⟩⟩
  | configured present ri _ hri =>
      exact finish_inv .ok ⟨hctx.uninitClear, hctx.seededCount, hri⟩ hout hrks
  | destroyed _ => exact finish_inv .ok cleared_inv (by simp) hrks

/-- Settles O9, by who moves: the engine's step by the effect of its command, the host's by the effect of its
access. -/
theorem invariantKeptByEveryStep : Obligations.InvariantKeptByEveryStep := by
  intro s s' hs hstep
  have htick : (tick s).Inv := hs.of_same_seq rfl le_rfl rfl
  rcases step_next_cases hstep with ⟨-, g, hg, hengine⟩ | ⟨op, rest, -, heffect⟩ | ⟨-, -, rfl⟩
  · rcases hengine with ⟨i, hd, hexec⟩ | ⟨-, -, rfl⟩
    · obtain ⟨t, ht, heffect⟩ := exec_run i (s := tick s) hg
      obtain rfl : t = s' := by simpa [ht] using hexec
      exact heffect.inv htick hg hd
    · obtain ⟨hctx, hout, hrks, -⟩ := State.inv_iff.mp htick
      exact finish_inv .illegalCmd hctx hout hrks
  · exact heffect.inv htick
  · exact hs

end Sys2Proof.Machine
end

section
/-! SUPPORT. What a host read returns after a host write, word by word of the window (20_memory.md R62, R66, R68,
R69), with O15, O16 and O17. -/

namespace Sys2Proof.Machine

theorem regWrite_of_locate {off : BitVec 32} {r : RegName} {k : Nat} (v : Word) (s : State)
    (h : locate off = some (r, k)) : regWrite off v s = writeReg r k v s := by
  simp [regWrite, h]

theorem regReadValue_of_locate {off : BitVec 32} {r : RegName} {k : Nat} (s : State)
    (h : locate off = some (r, k)) : regReadValue off s = readReg r k s := by
  simp [regReadValue, h]

/-- A word offset inside a row of the map is located. -/
theorem locate_isSome_of_mem {off : BitVec 32} {row : RegRow} (hmem : row ∈ regMap)
    (hin : row.base / 4 ≤ wordIndex off ∧ wordIndex off < row.base / 4 + row.words) :
    (locate off).isSome := by
  rw [locate, Option.isSome_map, List.find?_isSome]
  exact ⟨row, hmem, decide_eq_true hin⟩

/-- The rows that are not read-write lie outside the three ranges of operand words. -/
theorem range_of_not_readWrite (r : RegName) (h : (regRow r).access ≠ .rw) :
    let first := (regRow r).base / 4
    let past := first + (regRow r).words
    past ≤ 3 ∨ (7 ≤ first ∧ past ≤ 16) ∨ (28 ≤ first ∧ past ≤ 32) ∨ 56 ≤ first := by
  revert h
  cases r <;> decide

/-- Every word of the three ranges of operand words is a word of a read-write register. -/
theorem locate_operand {off : BitVec 32}
    (h : (3 ≤ wordIndex off ∧ wordIndex off < 7) ∨ (16 ≤ wordIndex off ∧ wordIndex off < 28) ∨
      (32 ≤ wordIndex off ∧ wordIndex off < 56)) :
    ∃ r k, locate off = some (r, k) ∧ (regRow r).access = .rw := by
  have hlocated : (locate off).isSome := by
    by_contra hnone
    have hout : ∀ row ∈ regMap, ¬ (row.base / 4 ≤ wordIndex off ∧ wordIndex off < row.base / 4 + row.words) :=
      fun row hmem hin => hnone (locate_isSome_of_mem hmem hin)
    simp only [regMap, List.forall_mem_cons] at hout
    omega
  obtain ⟨⟨r, k⟩, hl⟩ := Option.isSome_iff_exists.mp hlocated
  refine ⟨r, k, hl, by_contra fun hrw => ?_⟩
  obtain ⟨hindex, hk⟩ := wordIndex_of_locate hl
  have hrange := range_of_not_readWrite r hrw
  dsimp only at hrange
  omega

/-- A write of a register other than CMD shows in no other register. -/
theorem readReg_writeReg_other {r r' : RegName} (k k' : Nat) (w : Word) (s : State) (hcmd : r ≠ .cmd)
    (hr : r' ≠ r) : readReg r' k' (writeReg r k w s) = readReg r' k' s := by
  have hsplit : readReg r' k' (writeReg r k w s) =
      if r' = r then readReg r k' (writeReg r k w s) else readReg r' k' s := by
    cases r with
    | cmd => exact absurd rfl hcmd
    | len | adLen | riLo | riHi | keyIn | ctrIn | entIn | adIn | cap | status | outAvail | outData | drbgRcLo
    | drbgRcHi | drbgRiLo | drbgRiHi | ctrOut | rks | drbgK | drbgV => cases r' <;> rfl
  rw [hsplit, if_neg hr]

/-- Reading an operand register after a write of it: the value written at the word written, the old value at its other
words. -/
theorem readReg_writeReg_same {r : RegName} {k k' : Nat} (w : Word) (s : State) (hrw : (regRow r).access = .rw)
    (hk : k < (regRow r).words) (hk' : k' < (regRow r).words) :
    readReg r k' (writeReg r k w s) = if k' = k then w else readReg r k' s := by
  have hwords : (regRow .len).words = 1 ∧ (regRow .adLen).words = 1 ∧ (regRow .riLo).words = 1 ∧
      (regRow .riHi).words = 1 ∧ (regRow .keyIn).words = 8 ∧ (regRow .ctrIn).words = 4 ∧
      (regRow .entIn).words = 12 ∧ (regRow .adIn).words = 12 := by decide
  cases r with
  | len | adLen | riLo | riHi =>
      rw [if_pos (by omega)]
      rfl
  | keyIn | ctrIn | entIn | adIn =>
      split
      · subst k'
        exact wordOf_storeWord_same _ k w (by omega)
      · exact wordOf_storeWord_other _ k k' w (by omega) ‹_›
  | cap | status | cmd | outAvail | outData | drbgRcLo | drbgRcHi | drbgRiLo | drbgRiHi | ctrOut | rks | drbgK
  | drbgV => exact absurd hrw (by decide)

theorem access_cases (r : RegName) : (regRow r).access = .ro ∨ (regRow r).access = .rw ∨ r = .cmd := by
  cases r <;> decide

/-- A write of a register other than CMD shows at the word written alone. -/
theorem readReg_writeReg_of_ne {r r' : RegName} {k k' : Nat} (w : Word) (s : State) (hcmd : r ≠ .cmd)
    (hk : k < (regRow r).words) (hk' : k' < (regRow r').words) (hne : ¬ (r' = r ∧ k' = k)) :
    readReg r' k' (writeReg r k w s) = readReg r' k' s := by
  by_cases hr : r' = r
  · subst hr
    rcases access_cases r' with hro | hrw | rfl
    · rw [writeReg_of_readOnly k w s hro]
    · rw [readReg_writeReg_same w s hrw hk hk', if_neg fun h => hne ⟨rfl, h⟩]
    · exact absurd rfl hcmd
  · exact readReg_writeReg_other k k' w s hcmd hr

/-- Settles O15: the offset selects a word of a read-write register, which reads back. -/
theorem operandWordReadsBack : Obligations.OperandWordReadsBack := by
  intro off v s hrange
  have ho : (off.extractLsb' 2 10).toNat = wordIndex off := rfl
  obtain ⟨r, k, hl, hrw⟩ := locate_operand (off := off) (by omega)
  rw [regReadValue_of_locate _ hl, regWrite_of_locate v s hl,
    readReg_writeReg_same v s hrw (locate_word_lt hl) (locate_word_lt hl), if_pos rfl]

/-- Settles O16: two words of the window are two registers or two words of one register. -/
theorem writeLeavesOtherWordsAlone : Obligations.WriteLeavesOtherWordsAlone := by
  intro off off' v s hne hcmd
  cases hl : locate off with
  | none => simp [regWrite, hl]
  | some p =>
      obtain ⟨r, k⟩ := p
      cases hl' : locate off' with
      | none => simp [regReadValue, hl']
      | some p' =>
          obtain ⟨r', k'⟩ := p'
          rw [regWrite_of_locate v s hl, regReadValue_of_locate _ hl', regReadValue_of_locate _ hl']
          refine readReg_writeReg_of_ne v s ?_ (locate_word_lt hl) (locate_word_lt hl') ?_
          · rintro rfl
            exact hcmd ((wordIndex_eq_toNat_iff 2).mp (wordIndex_of_locate_cmd hl))
          · rintro ⟨rfl, rfl⟩
            refine hne (BitVec.toNat_inj.mp ?_)
            exact (wordIndex_of_locate hl).1.trans (wordIndex_of_locate hl').1.symm

/-! The operand registers together. -/

/-- The registers the host writes, CMD apart (10_state.md R22). -/
structure Operands where
  len : Word
  adLen : Word
  riLo : Word
  riHi : Word
  keyIn : Bytes 32
  ctrIn : Bytes 16
  entIn : Bytes 48
  adIn : Bytes 48

/-- The operand registers of a state. -/
def operands (s : State) : Operands :=
  ⟨s.len, s.adLen, s.riLo, s.riHi, s.keyIn, s.ctrIn, s.entIn, s.adIn⟩

/-- A state with its operand registers replaced. -/
def withOperands (o : Operands) (s : State) : State :=
  { s with
    len := o.len, adLen := o.adLen, riLo := o.riLo, riHi := o.riHi, keyIn := o.keyIn, ctrIn := o.ctrIn,
    entIn := o.entIn, adIn := o.adIn }

@[simp] theorem withOperands_operands (s : State) : withOperands (operands s) s = s := rfl

@[simp] theorem withOperands_seq (o : Operands) (s : State) : (withOperands o s).seq = s.seq := rfl

@[simp] theorem withOperands_ctx (o : Operands) (s : State) : (withOperands o s).ctx = s.ctx := rfl

/-- Every register but STATUS reads the operands, OUT and the results alone. -/
theorem readReg_congr {r : RegName} (k : Nat) {s t : State} (hr : r ≠ .status)
    (hop : operands t = operands s) (hout : t.out = s.out) (hres : results t = results s) :
    readReg r k t = readReg r k s := by
  obtain ⟨hctx, hrks, -, hctrOut, -⟩ := results_eq_iff.mp hres
  simp only [operands, Operands.mk.injEq] at hop
  cases r with
  | status => exact absurd rfl hr
  | cap | cmd => rfl
  | len | adLen | riLo | riHi | keyIn | ctrIn | entIn | adIn => simp only [readReg, hop]
  | outAvail | outData => simp only [readReg, hout]
  | ctrOut | rks => simp only [readReg, hctrOut, hrks]
  | drbgRcLo | drbgRcHi | drbgRiLo | drbgRiHi | drbgK | drbgV => simp only [readReg, hctx]

theorem operands_presentCommand (w : Word) (s : State) : operands (presentCommand w s) = operands s := by
  rcases presentCommand_cases w s with ⟨-, h⟩ | ⟨g, -, -, h⟩ | ⟨-, h⟩ <;> rw [h] <;> rfl

/-- Settles O17: a presented word leaves the operands, OUT and the results, which are all that is read outside
STATUS. -/
theorem cmdWriteShowsOnlyInStatus : Obligations.CmdWriteShowsOnlyInStatus := by
  intro off w s hoff
  rw [regWrite_cmd w s (by decide)]
  cases hl : locate off with
  | none => simp [regReadValue, hl]
  | some p =>
      obtain ⟨r, k⟩ := p
      obtain ⟨hout, hres⟩ := presentCommand_frame w s
      rw [regReadValue_of_locate _ hl, regReadValue_of_locate _ hl]
      refine readReg_congr k ?_ (operands_presentCommand w s) hout hres
      rintro rfl
      obtain ⟨hindex, hk⟩ := wordIndex_of_locate hl
      have hrow : (regRow .status).base = 4 ∧ (regRow .status).words = 1 := by decide
      exact hoff ((wordIndex_eq_toNat_iff 1).mp (show wordIndex off = 1 by omega))

end Sys2Proof.Machine
end

section
/-! SUPPORT. What a read of OUT_DATA returns and pops (20_memory.md R61, R67), and O19. -/

namespace Sys2Proof.Machine

theorem regReadValue_outData {off : BitVec 32} (s : State) (h : wordIndex off = 8) :
    regReadValue off s = outWord s.out := by
  have hl : locate off = some (.outData, 0) := by simp [locate, h, regMap, List.find?]
  rw [regReadValue_of_locate s hl, readReg]

/-- The bytes of the word OUT_DATA reads are the next bytes of OUT, in order. -/
theorem wordByte_outWord (out : List Byte) {j : Nat} (h : j < 4) : wordByte (outWord out) j = out.getD j 0 := by
  obtain ⟨h0, h1, h2, h3⟩ := wordByte_packWord (out.getD 0 0) (out.getD 1 0) (out.getD 2 0) (out.getD 3 0)
  interval_cases j
  · exact h0
  · exact h1
  · exact h2
  · exact h3

/-- Settles O19: by the effect of a read at its word of the window, and the bytes of the word OUT_DATA reads. -/
theorem onlyOutDataReadsHaveAnEffect : Obligations.OnlyOutDataReadsHaveAnEffect := by
  intro off s
  have houtData : wordIndex off = 8 ↔ off.extractLsb' 2 10 = 8 := wordIndex_eq_toNat_iff 8
  rw [regReadEffect_eq]
  refine ⟨fun hoff => if_neg (mt houtData.mp hoff), fun hoff => ⟨fun j hj => ?_, ?_⟩⟩
  · rw [regReadValue_outData s (houtData.mpr hoff)]
    exact wordByte_outWord s.out hj
  · rw [if_pos (houtData.mpr hoff), ← List.drop_eq_drop_min]

end Sys2Proof.Machine
end

section
/-! SUPPORT. The big-endian value of a byte string, word by word (00_scope.md R8, 20_memory.md R62), and O22. -/

namespace Sys2Proof.Machine

theorem toNat_append_byte {m : Nat} (x : BitVec m) (b : Byte) : (x ++ b).toNat = x.toNat * 2 ^ 8 + b.toNat := by
  rw [BitVec.toNat_append, ← Nat.shiftLeft_add_eq_or_of_lt b.isLt, Nat.shiftLeft_eq]

theorem packWord_toNat (b0 b1 b2 b3 : Byte) :
    (packWord b0 b1 b2 b3).toNat = b0.toNat * 2 ^ 24 + b1.toNat * 2 ^ 16 + b2.toNat * 2 ^ 8 + b3.toNat := by
  simp only [packWord, toNat_append_byte]
  ring

/-- The big-endian value of the first `m` bytes of a byte string. -/
def bePrefix {n : Nat} (b : Bytes n) (m : Nat) : Nat :=
  ((List.range m).map (byteAt b)).foldl (fun acc x => acc * 256 + x.toNat) 0

theorem beNat_eq_bePrefix {n : Nat} (b : Bytes n) : beNat b = bePrefix b n := by
  rw [bePrefix, ← toList_eq_of_byteAt]
  rfl

theorem bePrefix_succ {n : Nat} (b : Bytes n) (m : Nat) :
    bePrefix b (m + 1) = bePrefix b m * 256 + (byteAt b m).toNat := by
  simp [bePrefix, List.range_succ]

/-- One more word is one more digit in base 2^32. -/
theorem bePrefix_add_word {n : Nat} (b : Bytes n) (k : Nat) :
    bePrefix b (4 * (k + 1)) = bePrefix b (4 * k) * 2 ^ 32 + (wordOf b k).toNat := by
  rw [show 4 * (k + 1) = 4 * k + 1 + 1 + 1 + 1 by ring, bePrefix_succ, bePrefix_succ, bePrefix_succ, bePrefix_succ,
    wordOf, packWord_toNat]
  ring

/-- The value of a 16-byte counter by its four words. -/
theorem beNat_eq_words (b : Bytes 16) :
    beNat b = (wordOf b 0).toNat * 2 ^ 96 + (wordOf b 1).toNat * 2 ^ 64 + (wordOf b 2).toNat * 2 ^ 32
      + (wordOf b 3).toNat := by
  calc beNat b = bePrefix b (4 * (3 + 1)) := beNat_eq_bePrefix b
    _ = (((0 * 2 ^ 32 + (wordOf b 0).toNat) * 2 ^ 32 + (wordOf b 1).toNat) * 2 ^ 32 + (wordOf b 2).toNat) * 2 ^ 32
        + (wordOf b 3).toNat := by
          rw [bePrefix_add_word b 3, bePrefix_add_word b 2, bePrefix_add_word b 1, bePrefix_add_word b 0]
          rfl
    _ = _ := by ring

/-- Settles O22: the twelve offsets select the words of the three counters, and a counter is its words as digits in
base 2^32. -/
theorem counterWordsAreBigEndianDigits : Obligations.CounterWordsAreBigEndianDigits := by
  intro s
  exact ⟨beNat_eq_words s.ctrIn, beNat_eq_words s.ctrOut, beNat_eq_words s.ctx.v⟩

end Sys2Proof.Machine
end

section
/-! SUPPORT. A running command and the operand registers (20_memory.md R73, 70_reset_and_hazards.md R294), and O55. -/

namespace Sys2Proof.Machine

/-- A write of a register other than CMD reads and changes the operands alone. -/
theorem writeReg_withOperands {r : RegName} (k : Nat) (w : Word) (s t : State) (h : r ≠ .cmd) :
    writeReg r k w (withOperands (operands s) t) = withOperands (operands (writeReg r k w s)) t := by
  cases r with
  | cmd => exact absurd rfl h
  | len | adLen | riLo | riHi | keyIn | ctrIn | entIn | adIn | cap | status | outAvail | outData | drbgRcLo
  | drbgRcHi | drbgRiLo | drbgRiHi | ctrOut | rks | drbgK | drbgV => rfl

/-- A write to any word but CMD does to every state with the same operands what it does to one. -/
theorem regWrite_eq_withOperands {off : BitVec 32} (v : Word) {s t : State} (hoff : wordIndex off ≠ 2)
    (hop : operands t = operands s) : regWrite off v t = withOperands (operands (regWrite off v s)) t := by
  have ht : t = withOperands (operands s) t := by rw [← hop, withOperands_operands]
  cases hl : locate off with
  | none => simpa [regWrite, hl] using ht
  | some p =>
      obtain ⟨r, k⟩ := p
      rw [regWrite_of_locate v t hl, regWrite_of_locate v s hl]
      have hcmd : r ≠ .cmd := by
        rintro rfl
        exact hoff (wordIndex_of_locate_cmd hl)
      calc writeReg r k v t = writeReg r k v (withOperands (operands s) t) := congrArg _ ht
        _ = withOperands (operands (writeReg r k v s)) t := writeReg_withOperands k v s t hcmd

/-- No command writes an operand register. -/
theorem CommandEffect.operands_eq {i : Instr} {s t : State} {g : Snapshot} (h : CommandEffect i s g t) :
    operands t = operands s := by
  cases h <;> rfl

theorem generateBody_withOperands (l : Nat) (k : Bytes 32) (v : Bytes 16) (rc : BitVec 64) (o : Operands)
    (s : State) : generateBody l k v rc (withOperands o s) = withOperands o (generateBody l k v rc s) := by
  unfold generateBody
  split <;> rfl

/-- A Complete step commutes with new operands when its body does. -/
theorem complete_withOperands {o : Operands} {s t : State} {g : Snapshot} {body body' : Snapshot → State}
    (hrun : s.seq = .run g) (hbody : body' g = withOperands o (body g)) (h : complete s body = .next t) :
    complete (withOperands o s) body' = .next (withOperands o t) := by
  rw [complete_of_run body hrun] at h
  cases h
  rw [complete_of_run (s := withOperands o s) body' hrun, hbody]

/-- A running command's meaning does not read the operand registers: it works on its snapshot. -/
theorem exec_withOperands (i : Instr) (o : Operands) {s t : State} {g : Snapshot} (hrun : s.seq = .run g)
    (h : exec i s = .next t) : exec i (withOperands o s) = .next (withOperands o t) := by
  cases i with
  | aesExpand f => exact complete_withOperands hrun rfl h
  | aesCtr f => exact complete_withOperands hrun rfl h
  | aesCtrZeroiv f => exact complete_withOperands hrun rfl h
  | aesCtrRks f =>
      refine complete_withOperands hrun ?_ h
      split <;> rfl
  | ctrInc f => exact complete_withOperands hrun rfl h
  | rksClear f => exact complete_withOperands hrun rfl h
  | drbgSeed f =>
      refine complete_withOperands hrun ?_ h
      split <;> rfl
  | drbgReseed f =>
      refine complete_withOperands hrun ?_ h
      rw [withOperands_ctx]
      cases s.ctx.state with
      | uninit => rfl
      | seeded => dsimp only; split <;> rfl
  | drbgGenerate f =>
      refine complete_withOperands hrun ?_ h
      cases g.seedBytes with
      | some seed => exact generateBody_withOperands _ _ _ _ o s
      | none =>
          rw [withOperands_ctx]
          cases s.ctx.state with
          | uninit => rfl
          | seeded =>
              dsimp only
              split
              · rfl
              · split
                · rfl
                · exact generateBody_withOperands _ _ _ _ o s
  | drbgConfigSeeder f =>
      refine complete_withOperands hrun ?_ h
      split <;> rfl
  | drbgSeedResponse f =>
      simp only [exec, execDrbgSeedResponse, withOperands_seq, hrun] at h ⊢
      cases h
      rfl
  | drbgDestroy f => exact complete_withOperands hrun rfl h

/-- Settles O55: the write changes the operands alone, of the running state and of the completed one alike, and the
command does not read them. -/
theorem runningCommandIgnoresOperandWrites : Obligations.RunningCommandIgnoresOperandWrites := by
  intro i s t g off v hrun hoff hexec
  have hoff' : wordIndex off ≠ 2 := fun h => hoff ((wordIndex_eq_toNat_iff 2).mp h)
  obtain ⟨t', ht', heffect⟩ := exec_run i hrun
  obtain rfl : t' = t := by simpa [ht'] using hexec
  rw [regWrite_eq_withOperands v hoff' rfl, regWrite_eq_withOperands v hoff' heffect.operands_eq]
  exact exec_withOperands i _ hrun hexec

end Sys2Proof.Machine
end

section
/-! SUPPORT. The fields of a command word, the decoder and the encoder (30_encoding.md R90 to R99), with O1, O2, O3
and O4. -/

namespace Sys2Proof

/-- The fields of R91 cover the word. -/
theorem word_ext_fields {w w' : Word} (hrsvd : rsvdField w = rsvdField w') (hopc : opcField w = opcField w')
    (hflags : flagsField w = flagsField w') : w = w' := by
  simp only [flagsField, CmdFlags.mk.injEq] at hflags
  obtain ⟨hadv, houtv, hseeder⟩ := hflags
  apply BitVec.eq_of_getLsbD_eq
  intro j hj
  rcases (by omega : j < 8 ∨ j = 8 ∨ j = 9 ∨ j = 10 ∨ 11 ≤ j) with hlow | rfl | rfl | rfl | hhigh
  · simpa [opcField, hlow] using congrArg (·.getLsbD j) hopc
  · exact hadv
  · exact houtv
  · exact hseeder
  · have hbit := congrArg (·.getLsbD (j - 11)) hrsvd
    simpa [rsvdField, show j - 11 < 21 by omega, show 11 + (j - 11) = j by omega] using hbit

@[simp] theorem rsvdField_encode (i : Instr) : rsvdField (encode i) = 0 := by
  apply BitVec.eq_of_getLsbD_eq
  intro j hj
  simp only [rsvdField, encode, BitVec.getLsbD_extractLsb', BitVec.getLsbD_append]
  simp [show ¬ 11 + j < 8 by omega, show ¬ 11 + j - 8 < 1 by omega, show ¬ 11 + j - 8 - 1 < 1 by omega,
    show ¬ 11 + j - 8 - 1 - 1 < 1 by omega]

@[simp] theorem opcField_encode (i : Instr) : opcField (encode i) = i.opcode := by
  apply BitVec.eq_of_getLsbD_eq
  intro j hj
  simp only [opcField, encode, BitVec.getLsbD_extractLsb', BitVec.getLsbD_append]
  simp [hj]

@[simp] theorem flagsField_encode (i : Instr) : flagsField (encode i) = i.flags := by
  simp only [flagsField, encode, BitVec.getLsbD_append]
  simp

/-- The opcodes of R94. -/
def legalOpcodes : List Nat := [0x01, 0x02, 0x03, 0x04, 0x05, 0x06, 0x10, 0x11, 0x12, 0x13, 0x14, 0x15]

theorem opcode_mem_legalOpcodes (i : Instr) : i.opcode.toNat ∈ legalOpcodes := by
  cases i <;> simp [legalOpcodes, Instr.opcode]

theorem commandOf_eq_some_iff {opc : BitVec 8} {f : CmdFlags} {i : Instr} :
    commandOf opc f = some i ↔ i.opcode = opc ∧ i.flags = f := by
  constructor
  · intro h
    unfold commandOf at h
    split at h <;> cases h <;> rename_i hopc <;> exact ⟨BitVec.eq_of_toNat_eq hopc.symm, rfl⟩
  · rintro ⟨rfl, rfl⟩
    cases i <;> rfl

/-- Every opcode of R94 gives a command. -/
theorem exists_commandOf_of_mem {opc : BitVec 8} (f : CmdFlags) (h : opc.toNat ∈ legalOpcodes) :
    ∃ i, commandOf opc f = some i := by
  have hcases : ∀ n ∈ legalOpcodes, ∃ i : Instr, i.opcode.toNat = n ∧ i.flags = f := by
    simp only [legalOpcodes, List.forall_mem_cons, List.not_mem_nil, false_imp_iff, implies_true, and_true]
    exact ⟨⟨.aesExpand f, rfl, rfl⟩, ⟨.aesCtr f, rfl, rfl⟩, ⟨.aesCtrZeroiv f, rfl, rfl⟩, ⟨.aesCtrRks f, rfl, rfl⟩,
      ⟨.ctrInc f, rfl, rfl⟩, ⟨.rksClear f, rfl, rfl⟩, ⟨.drbgSeed f, rfl, rfl⟩, ⟨.drbgReseed f, rfl, rfl⟩,
      ⟨.drbgGenerate f, rfl, rfl⟩, ⟨.drbgConfigSeeder f, rfl, rfl⟩, ⟨.drbgSeedResponse f, rfl, rfl⟩,
      ⟨.drbgDestroy f, rfl, rfl⟩⟩
  obtain ⟨i, hopc, hflags⟩ := hcases _ h
  exact ⟨i, commandOf_eq_some_iff.mpr ⟨BitVec.eq_of_toNat_eq hopc, hflags⟩⟩

/-- What it takes for a word to decode to a command: no reserved bit, the command's opcode, its flags. -/
theorem decode_eq_ok_iff {w : Word} {i : Instr} :
    decode w = .ok i ↔ rsvdField w = 0 ∧ i.opcode = opcField w ∧ i.flags = flagsField w := by
  rw [← commandOf_eq_some_iff]
  unfold decode
  by_cases hrsvd : rsvdField w = 0
  · rw [if_neg (not_not.mpr hrsvd)]
    cases commandOf (opcField w) (flagsField w) <;> simp [hrsvd]
  · rw [if_pos hrsvd]
    exact ⟨nofun, fun h => absurd h.1 hrsvd⟩

/-- A word is a command by its reserved bits and its opcode alone. -/
theorem exists_decode_iff {w : Word} :
    (∃ i, decode w = .ok i) ↔ rsvdField w = 0 ∧ (opcField w).toNat ∈ legalOpcodes := by
  constructor
  · rintro ⟨i, hd⟩
    obtain ⟨hrsvd, hopc, -⟩ := decode_eq_ok_iff.mp hd
    exact ⟨hrsvd, hopc ▸ opcode_mem_legalOpcodes i⟩
  · rintro ⟨hrsvd, hmem⟩
    obtain ⟨i, hi⟩ := exists_commandOf_of_mem (flagsField w) hmem
    exact ⟨i, decode_eq_ok_iff.mpr ⟨hrsvd, commandOf_eq_some_iff.mp hi⟩⟩

/-- The decoder is total: a word that is no command is an error. -/
theorem exists_error_iff {w : Word} : (∃ e, decode w = .error e) ↔ ¬ ∃ i, decode w = .ok i := by
  cases decode w <;> simp

theorem decode_encode (i : Instr) : decode (encode i) = .ok i :=
  decode_eq_ok_iff.mpr ⟨rsvdField_encode i, (opcField_encode i).symm, (flagsField_encode i).symm⟩

theorem encode_of_decode {w : Word} {i : Instr} (h : decode w = .ok i) : encode i = w := by
  obtain ⟨hrsvd, hopc, hflags⟩ := decode_eq_ok_iff.mp h
  apply word_ext_fields
  · rw [rsvdField_encode, hrsvd]
  · rw [opcField_encode, hopc]
  · rw [flagsField_encode, hflags]

theorem Instr.wf_eq_true (i : Instr) : i.wf = true := by
  cases i <;> rfl

/-- Settles O1: the encoder lays the fields that the decoder reads, and the fields cover the word. -/
theorem decodeEncodeAgree : Obligations.DecodeEncodeAgree :=
  ⟨fun i _ => decode_encode i, fun _ i hd => ⟨i.wf_eq_true, encode_of_decode hd⟩⟩

/-- Settles O2: a word decodes exactly when its reserved bits are 0 and its opcode is of R94, and then its fields are
the command's. -/
theorem decodeIsTotalByTheRule : Obligations.DecodeIsTotalByTheRule := by
  intro w
  refine ⟨fun hrsvd => ?_, fun hrsvd hmem => ?_, fun _ hmem => ?_⟩
  · exact exists_error_iff.mpr fun hcommand => hrsvd (exists_decode_iff.mp hcommand).1
  · obtain ⟨i, hd⟩ := exists_decode_iff.mpr ⟨hrsvd, hmem⟩
    obtain ⟨-, hopc, hflags⟩ := decode_eq_ok_iff.mp hd
    exact ⟨i, hd, hopc, hflags⟩
  · exact exists_error_iff.mpr fun hcommand => hmem (exists_decode_iff.mp hcommand).2

/-! The rows of the opcode map. -/

/-- A command's word matches one row of the opcode map. -/
theorem matchingRows_encode_length (i : Instr) : (matchingRows (encode i)).length = 1 := by
  cases i with
  | aesExpand f => exact (Laws.TableRow.aesExpand f).2
  | aesCtr f => exact (Laws.TableRow.aesCtr f).2
  | aesCtrZeroiv f => exact (Laws.TableRow.aesCtrZeroiv f).2
  | aesCtrRks f => exact (Laws.TableRow.aesCtrRks f).2
  | ctrInc f => exact (Laws.TableRow.ctrInc f).2
  | rksClear f => exact (Laws.TableRow.rksClear f).2
  | drbgSeed f => exact (Laws.TableRow.drbgSeed f).2
  | drbgReseed f => exact (Laws.TableRow.drbgReseed f).2
  | drbgGenerate f => exact (Laws.TableRow.drbgGenerate f).2
  | drbgConfigSeeder f => exact (Laws.TableRow.drbgConfigSeeder f).2
  | drbgSeedResponse f => exact (Laws.TableRow.drbgSeedResponse f).2
  | drbgDestroy f => exact (Laws.TableRow.drbgDestroy f).2

/-- The mask of every row keeps OPC and RSVD and drops the flags (90_conflicts.md C16). -/
theorem fields_and_mask (w : Word) :
    rsvdField (w &&& 0xFFFFF8FF) = rsvdField w ∧ opcField (w &&& 0xFFFFF8FF) = opcField w := by
  have hmask : rsvdField 0xFFFFF8FF = BitVec.allOnes 21 ∧ opcField 0xFFFFF8FF = BitVec.allOnes 8 := by decide
  obtain ⟨hrsvd, hopc⟩ := hmask
  constructor
  · calc rsvdField (w &&& 0xFFFFF8FF) = rsvdField w &&& rsvdField 0xFFFFF8FF := BitVec.extractLsb'_and
      _ = rsvdField w := by rw [hrsvd, BitVec.and_allOnes]
  · calc opcField (w &&& 0xFFFFF8FF) = opcField w &&& opcField 0xFFFFF8FF := BitVec.extractLsb'_and
      _ = opcField w := by rw [hopc, BitVec.and_allOnes]

/-- The pattern of every row is the word of a command, and its mask is that of C16. -/
theorem opcodeTable_row : ∀ row ∈ opcodeTable,
    row.mask = 0xFFFFF8FF ∧ rsvdField row.pattern = 0 ∧ (opcField row.pattern).toNat ∈ legalOpcodes := by
  decide

/-- A word that matches a row is a command. -/
theorem exists_decode_of_mem_matchingRows {w : Word} {row : OpcodeRow} (h : row ∈ matchingRows w) :
    ∃ i, decode w = .ok i := by
  obtain ⟨hrow, hmatch⟩ := List.mem_filter.mp h
  obtain ⟨hmask, hrsvd, hopc⟩ := opcodeTable_row row hrow
  obtain ⟨hrsvdMask, hopcMask⟩ := fields_and_mask w
  rw [decide_eq_true_eq, hmask] at hmatch
  rw [exists_decode_iff, ← hrsvdMask, ← hopcMask, hmatch]
  exact ⟨hrsvd, hopc⟩

/-- Settles O3: a command's word is an encoded command, which matches one row, and a word that matches any row is a
command. -/
theorem opcodeRowsSelectOneCommand : Obligations.OpcodeRowsSelectOneCommand := by
  intro w
  have hone : (∃ i, decode w = .ok i) → (matchingRows w).length = 1 := by
    rintro ⟨i, hd⟩
    rw [← encode_of_decode hd, matchingRows_encode_length]
  cases hrows : matchingRows w with
  | nil => simpa [hrows] using hone
  | cons row rows =>
      have hcommand := exists_decode_of_mem_matchingRows (hrows ▸ List.mem_cons_self : row ∈ matchingRows w)
      rw [← hrows, hone hcommand]
      exact ⟨le_rfl, iff_of_true hcommand rfl⟩

/-- Settles O4: the first five words are encoded commands. -/
theorem wordsOfTheSpecDecode : Obligations.WordsOfTheSpecDecode :=
  ⟨decode_encode (.aesExpand ⟨false, false, false⟩), decode_encode (.aesCtr ⟨true, true, true⟩),
    decode_encode (.drbgSeed ⟨true, false, false⟩), decode_encode (.drbgGenerate ⟨false, true, false⟩),
    decode_encode (.drbgConfigSeeder ⟨false, false, true⟩), rfl, rfl⟩

end Sys2Proof
end

section
/-! SUPPORT. What a CMD write and an illegal word do (30_encoding.md R95, R96), with O6 and O7. -/

namespace Sys2Proof.Machine

/-- At the engine's turn a word that is no command completes with ILLEGAL_CMD. -/
theorem step_of_decode_error {s : State} {g : Snapshot} (hseq : s.seq = .run g) (hturn : s.EngineTurn)
    (hd : ¬ ∃ i, decode g.word = .ok i) : step s = .next (finish .illegalCmd (tick s)) := by
  rw [step_engineTurn hturn]
  rcases engineStep_run (s := tick s) hseq with ⟨i, hok, -⟩ | ⟨-, -, herror⟩
  · exact absurd ⟨i, hok⟩ hd
  · exact herror

theorem isSeedResponse_iff {w : Word} : isSeedResponse w = true ↔ opcField w = 0x14 ∧ rsvdField w = 0 := by
  rw [isSeedResponse, Bool.and_eq_true, decide_eq_true_eq, decide_eq_true_eq]

theorem presentCommand_idle {s : State} (w : Word) (h : s.seq = .idle) :
    presentCommand w s = acceptCommand w s := by
  simp only [presentCommand, h]

theorem presentCommand_run {s : State} {g : Snapshot} (w : Word) (h : s.seq = .run g) :
    presentCommand w s = rejectCommand s := by
  simp only [presentCommand, h]

theorem presentCommand_waitSeed {s : State} {g : Snapshot} (w : Word) (h : s.seq = .waitSeed g) :
    presentCommand w s = if isSeedResponse w then acceptSeedResponse g s else rejectCommand s := by
  simp only [presentCommand, h]

/-- Settles O6: reserved bits or an unknown opcode make the word no command. -/
theorem illegalWordCompletesWithIllegalCmd : Obligations.IllegalWordCompletesWithIllegalCmd := by
  intro s g hseq hturn hillegal
  refine step_of_decode_error hseq hturn fun hcommand => ?_
  obtain ⟨hrsvd, hopc⟩ := exists_decode_iff.mp hcommand
  rcases hillegal with hreserved | hunknown
  · exact hreserved hrsvd
  · exact hunknown hopc

/-- Settles O7: by SEQ, and in WAIT_SEED by whether the word is a seed response. -/
theorem cmdWriteIsAcceptedOrRejected : Obligations.CmdWriteIsAcceptedOrRejected := by
  intro s w
  rw [regWrite_cmd w s (by decide)]
  refine ⟨presentCommand_idle w, fun g hseq hresponse => ?_, fun g hseq hother => ?_,
    fun g hseq => presentCommand_run w hseq⟩
  · rw [presentCommand_waitSeed w hseq, if_pos (isSeedResponse_iff.mpr hresponse)]
    rfl
  · rw [presentCommand_waitSeed w hseq, if_neg (mt isSeedResponse_iff.mp hother)]
    rfl

end Sys2Proof.Machine
end

section
/-! SUPPORT. The frame of every command, register by register (30_encoding.md R93), and O53. -/

namespace Sys2Proof.Machine

section CommandFrame

variable {i : Instr} {s t : State} {g : Snapshot}

/-- No command moves the host's side or clears OVR in RUN. -/
theorem CommandEffect.host_eq (h : CommandEffect i s g t) :
    t.script = s.script ∧ t.notes = s.notes ∧ t.schedule = s.schedule ∧ t.ovr = s.ovr := by
  cases h <;> exact ⟨rfl, rfl, rfl, rfl⟩

theorem CommandEffect.rks_eq (h : CommandEffect i s g t) (hi : writesSchedule i = false) :
    t.rks = s.rks ∧ t.rksValid = s.rksValid := by
  cases h with
  | schedule rks valid hcommand => rcases hcommand with ⟨f, rfl, -⟩ | ⟨f, rfl, -⟩ <;> cases hi
  | failed | stream | increment | seeded | reseeded | generated | asked | configured | destroyed => exact ⟨rfl, rfl⟩

theorem CommandEffect.out_eq (h : CommandEffect i s g t) (hi : writesOut i = false) : t.out = s.out := by
  cases h with
  | stream rk c hcommand => rcases hcommand with ⟨f, rfl, -⟩ | ⟨f, rfl, -⟩ | ⟨f, rfl, -⟩ <;> cases hi
  | generated _ _ _ _ hcommand | destroyed hcommand => obtain ⟨f, rfl⟩ := hcommand; cases hi
  | failed | schedule | increment | seeded | reseeded | asked | configured => rfl

theorem CommandEffect.ctrOut_eq (h : CommandEffect i s g t) (hi : writesCtrOut i = false) :
    t.ctrOut = s.ctrOut := by
  cases h with
  | stream rk c hcommand => rcases hcommand with ⟨f, rfl, -⟩ | ⟨f, rfl, -⟩ | ⟨f, rfl, -⟩ <;> cases hi
  | increment hcommand => obtain ⟨f, rfl⟩ := hcommand; cases hi
  | failed | schedule | seeded | reseeded | generated | asked | configured | destroyed => rfl

theorem CommandEffect.keyState_eq (h : CommandEffect i s g t) (hi : writesKeyState i = false) :
    t.ctx.k = s.ctx.k ∧ t.ctx.v = s.ctx.v ∧ t.ctx.rc = s.ctx.rc := by
  cases h with
  | seeded _ hcommand | reseeded _ _ hcommand | generated _ _ _ _ hcommand | destroyed hcommand =>
      obtain ⟨f, rfl⟩ := hcommand; cases hi
  | failed | schedule | stream | increment | asked | configured => exact ⟨rfl, rfl, rfl⟩

theorem CommandEffect.seederSetting_eq (h : CommandEffect i s g t) (hi : writesSeederSetting i = false) :
    t.ctx.ri = s.ctx.ri ∧ t.ctx.seederPresent = s.ctx.seederPresent := by
  cases h with
  | seeded _ hcommand | configured _ _ hcommand | destroyed hcommand => obtain ⟨f, rfl⟩ := hcommand; cases hi
  | failed | schedule | stream | increment | reseeded | generated | asked => exact ⟨rfl, rfl⟩

theorem CommandEffect.ctxState_eq (h : CommandEffect i s g t) (hi : writesCtxState i = false) :
    t.ctx.state = s.ctx.state := by
  cases h with
  | seeded _ hcommand | destroyed hcommand => obtain ⟨f, rfl⟩ := hcommand; cases hi
  | failed | schedule | stream | increment | reseeded | generated | asked | configured => rfl

end CommandFrame

/-- Settles O53: in RUN by the command's effect, register by register; a seed response accepted in WAIT_SEED writes
SEQ and OVR alone. -/
theorem commandsWriteOnlyTheirResults : Obligations.CommandsWriteOnlyTheirResults := by
  intro i s t hexec
  rcases exec_next i hexec with ⟨g, -, heffect⟩ | ⟨f, g, rfl, -, rfl⟩
  · have hoperands := heffect.operands_eq
    simp only [operands, Operands.mk.injEq] at hoperands
    obtain ⟨hlen, hadLen, hriLo, hriHi, hkeyIn, hctrIn, hentIn, hadIn⟩ := hoperands
    obtain ⟨hscript, hnotes, hschedule, hovr⟩ := heffect.host_eq
    exact ⟨⟨hlen, hadLen, hriLo, hriHi⟩, ⟨hkeyIn, hctrIn, hentIn, hadIn⟩, ⟨hscript, hnotes, hschedule⟩,
      heffect.rks_eq, heffect.out_eq, heffect.ctrOut_eq, heffect.keyState_eq, heffect.seederSetting_eq,
      heffect.ctxState_eq, fun _ => hovr⟩
  · simp

end Sys2Proof.Machine
end

section
/-! SUPPORT. What a command reads of its snapshot (30_encoding.md R93), and O56. -/

namespace Sys2Proof.Machine

/-- A state with the command of another snapshot running. -/
def withRunning (g : Snapshot) (s : State) : State := { s with seq := .run g }

@[simp] theorem withRunning_ctx (g : Snapshot) (s : State) : (withRunning g s).ctx = s.ctx := rfl

/-- Two outcomes of a command on two snapshots: the same state, or the same wait, each with its own snapshot. -/
def SameOutcome (s : State) (g g' : Snapshot) (t t' : State) : Prop :=
  t = t' ∨ (t = { s with seq := .waitSeed g } ∧ t' = { s with seq := .waitSeed g' })

section CommandReads

variable {s s' t t' : State} {g g' : Snapshot}

/-- Two Complete steps have the same outcome when their bodies do. -/
theorem SameOutcome.of_complete {body body' : Snapshot → State} (hrun : s.seq = .run g)
    (hrun' : s' = withRunning g' s) (ht : complete s body = .next t) (ht' : complete s' body' = .next t')
    (h : SameOutcome s g g' (body g) (body' g')) : SameOutcome s g g' t t' := by
  rw [complete_of_run body hrun] at ht
  rw [complete_of_run body' (hrun' ▸ rfl : s'.seq = .run g')] at ht'
  cases ht
  cases ht'
  exact h

theorem generateBody_withRunning (l : Nat) (k : Bytes 32) (v : Bytes 16) (rc : BitVec 64) (g : Snapshot)
    (s : State) : generateBody l k v rc s = generateBody l k v rc (withRunning g s) := by
  unfold generateBody
  split <;> rfl

/-- A command's outcome depends on the operands of R93 alone: what it writes on ending replaces SEQ. -/
theorem exec_sameOutcome (i : Instr) (hop : operandsAgree i g g') (hrun : s.seq = .run g)
    (hrun' : s' = withRunning g' s) (ht : exec i s = .next t) (ht' : exec i s' = .next t') :
    SameOutcome s g g' t t' := by
  cases i with
  | aesExpand f =>
      have hkey : g.keyIn = g'.keyIn := hop
      refine .of_complete hrun hrun' ht ht' (.inl ?_)
      rw [hkey, hrun']
      rfl
  | aesCtr f =>
      obtain ⟨hkey, hctr, hlen⟩ := hop
      refine .of_complete hrun hrun' ht ht' (.inl ?_)
      rw [hkey, hctr, hlen, hrun']
      rfl
  | aesCtrZeroiv f =>
      obtain ⟨hkey, hlen⟩ := hop
      refine .of_complete hrun hrun' ht ht' (.inl ?_)
      rw [hkey, hlen, hrun']
      rfl
  | aesCtrRks f =>
      obtain ⟨hrks, hvalid, hctr, hlen⟩ := hop
      refine .of_complete hrun hrun' ht ht' (.inl ?_)
      rw [hrks, hvalid, hctr, hlen, hrun']
      split <;> rfl
  | ctrInc f =>
      have hctr : g.ctrIn = g'.ctrIn := hop
      refine .of_complete hrun hrun' ht ht' (.inl ?_)
      rw [hctr, hrun']
      rfl
  | rksClear f =>
      refine .of_complete hrun hrun' ht ht' (.inl ?_)
      rw [hrun']
      rfl
  | drbgSeed f =>
      obtain ⟨hent, had, hadLen⟩ := hop
      refine .of_complete hrun hrun' ht ht' (.inl ?_)
      rw [hent, had, hadLen, hrun']
      split <;> rfl
  | drbgReseed f =>
      obtain ⟨hent, had, hadLen⟩ := hop
      refine .of_complete hrun hrun' ht ht' (.inl ?_)
      rw [hent, had, hadLen, hrun', withRunning_ctx]
      cases s.ctx.state with
      | uninit => rfl
      | seeded => dsimp only; split <;> rfl
  | drbgGenerate f =>
      obtain ⟨hlen, hseed⟩ := hop
      refine .of_complete hrun hrun' ht ht' ?_
      rw [hlen, hseed, hrun', withRunning_ctx]
      cases g'.seedBytes with
      | some seed => exact .inl (generateBody_withRunning _ _ _ _ g' s)
      | none =>
          cases s.ctx.state with
          | uninit => exact .inl rfl
          | seeded =>
              dsimp only
              split
              · exact .inl rfl
              · split
                · exact .inr ⟨rfl, rfl⟩
                · exact .inl (generateBody_withRunning _ _ _ _ g' s)
  | drbgConfigSeeder f =>
      have hri : g.riOp = g'.riOp := hop
      refine .of_complete hrun hrun' ht ht' (.inl ?_)
      rw [hri, hrun']
      split <;> rfl
  | drbgSeedResponse f =>
      subst hrun'
      simp only [exec, execDrbgSeedResponse, hrun] at ht
      cases ht
      cases ht'
      exact .inl rfl
  | drbgDestroy f =>
      refine .of_complete hrun hrun' ht ht' (.inl ?_)
      rw [hrun']
      rfl

end CommandReads

/-- Settles O56: the two outcomes are one state, or two waits of one state. -/
theorem commandsReadOnlyTheirOperands : Obligations.CommandsReadOnlyTheirOperands := by
  intro i s t t' g g' hop ht ht'
  rcases exec_sameOutcome i hop rfl rfl ht ht' with rfl | ⟨rfl, rfl⟩
  · exact ⟨rfl, Iff.rfl⟩
  · exact ⟨rfl, by simp⟩

end Sys2Proof.Machine
end

section
/-! SUPPORT. The bytes of bus words in a row, and the host's moves in a row, with O20 and O21. -/

namespace Sys2Proof.Machine

/-! The bytes of words. -/

/-- The bytes of a word, in the order of the bus (20_memory.md R62). -/
def wordBytes (w : Word) : List Byte := [wordByte w 0, wordByte w 1, wordByte w 2, wordByte w 3]

@[simp] theorem wordBytes_length (w : Word) : (wordBytes w).length = 4 := rfl

@[simp] theorem wordBytes_packWord (b0 b1 b2 b3 : Byte) : wordBytes (packWord b0 b1 b2 b3) = [b0, b1, b2, b3] := by
  obtain ⟨h0, h1, h2, h3⟩ := wordByte_packWord b0 b1 b2 b3
  rw [wordBytes, h0, h1, h2, h3]

/-- A whole number of words has the bytes of the list they are made of. -/
theorem flatMap_wordBytes_wordsOfBytes :
    ∀ bytes : List Byte, bytes.length % 4 = 0 → (wordsOfBytes bytes).flatMap wordBytes = bytes
  | [], _ => rfl
  | b0 :: b1 :: b2 :: b3 :: rest, h => by
      have hrest := flatMap_wordBytes_wordsOfBytes rest (by simp only [List.length_cons] at h; omega)
      simp [wordsOfBytes, hrest]
  | [_], h | [_, _], h | [_, _, _], h => absurd h (by simp)

theorem length_flatMap_wordBytes (ws : List Word) : (ws.flatMap wordBytes).length = 4 * ws.length := by
  induction ws with
  | nil => rfl
  | cons w ws ih => simp only [List.flatMap_cons, List.length_append, ih, wordBytes_length, List.length_cons]; omega

/-! READOUT. -/

/-- The words that `n` reads of OUT_DATA return. -/
def outWords : Nat → List Byte → List Word
  | 0, _ => []
  | n + 1, out => outWord out :: outWords n (out.drop 4)

/-- Reads enough for OUT return its bytes, the first in front. -/
theorem take_flatMap_outWords :
    ∀ (n : Nat) (out : List Byte), out.length ≤ 4 * n →
      ((outWords n out).flatMap wordBytes).take out.length = out
  | 0, [], _ => rfl
  | n + 1, b0 :: b1 :: b2 :: b3 :: rest, h => by
      have hrest := take_flatMap_outWords n rest (by simp only [List.length_cons] at h; omega)
      simp [outWords, outWord, hrest]
  | n + 1, [], _ | n + 1, [_], _ | n + 1, [_, _], _ | n + 1, [_, _, _], _ => by simp [outWords, outWord]

/-- `n` reads of OUT_DATA at the host's turn. -/
theorem run_readout (n : Nat) {s : State} (hmoves : s.HostMoves n)
    (hscript : s.script = List.replicate n (.read (regOffset .outData 0))) :
    Host.Core.run Sys2Proof.core n s = .next { s with
      script := [], out := s.out.drop (4 * n), notes := s.notes ++ outWords n s.out,
      schedule := s.schedule.drop n } := by
  induction n generalizing s with
  | zero => simp [Host.Core.run, outWords, ← show s.script = [] from hscript]
  | succ n ih =>
      have hread : wordIndex (regOffset .outData 0) = 8 := by decide
      have hstep : step s = .next { s with
          script := List.replicate n (.read (regOffset .outData 0)), out := s.out.drop 4,
          notes := s.notes ++ [outWord s.out], schedule := s.schedule.tail } := by
        rw [step_hostTurn (hmoves.hostTurn hscript), hostStep, hostRead, regReadEffect_eq, if_pos hread,
          regReadValue_outData _ hread]
        rfl
      refine (run_succ_of_next n hstep).trans ((ih ?_ rfl).trans ?_)
      · exact hmoves.tail id rfl
      · simp [outWords, mul_add, add_comm]

/-- Settles O20: the reads return the words of OUT, whose bytes are those of OUT. -/
theorem readoutReturnsTheOutput : Obligations.ReadoutReturnsTheOutput := by
  intro s hmoves hscript
  have henough : s.out.length ≤ 4 * ((s.out.length + 3) / 4) := by omega
  refine ⟨_, ?_, take_flatMap_outWords _ s.out henough⟩
  rw [run_readout _ hmoves hscript, List.drop_eq_nil_of_le henough]

/-! LOADB. -/

/-- The register of a buffer, when words are written to it one after the other from word `k` on. -/
def storeWords {n : Nat} (b : Bytes n) (k : Nat) (ws : List Word) : Bytes n :=
  (ws.zipIdx k).foldl (fun b p => storeWord b p.2 p.1) b

/-- The state, when words are written to a register one after the other from word `k` on. -/
def writeRegs (r : RegName) (k : Nat) (ws : List Word) (s : State) : State :=
  (ws.zipIdx k).foldl (fun s p => writeReg r p.2 p.1 s) s

/-- The bytes of a byte string before, in and after word `k`. -/
theorem toList_split_at_word {m : Nat} (k : Nat) (b : Bytes (4 * k + 4 + m)) :
    b.toList = (List.range (4 * k)).map (byteAt b) ++ (List.range 4).map (fun j => byteAt b (4 * k + j))
      ++ (List.range m).map fun j => byteAt b (4 * k + 4 + j) := by
  simp [toList_eq_of_byteAt, List.range_add, Function.comp_def]

/-- A stored word takes the place of four bytes. -/
theorem toList_storeWord {n : Nat} (b : Bytes n) (k : Nat) (w : Word) (h : 4 * k + 4 ≤ n) :
    (storeWord b k w).toList = b.toList.take (4 * k) ++ wordBytes w ++ b.toList.drop (4 * k + 4) := by
  obtain ⟨m, rfl⟩ := Nat.exists_eq_add_of_le h
  have htake : b.toList.take (4 * k) = (List.range (4 * k)).map (byteAt b) := by
    rw [toList_split_at_word k b, List.append_assoc, List.take_left' (by simp)]
  have hdrop : b.toList.drop (4 * k + 4) = (List.range m).map fun j => byteAt b (4 * k + 4 + j) := by
    rw [toList_split_at_word k b, List.drop_left' (by simp)]
  rw [htake, hdrop, toList_split_at_word k (storeWord b k w),
    show wordBytes w = (List.range 4).map (wordByte w) from rfl]
  refine congrArg₂ (· ++ ·) (congrArg₂ (· ++ ·) ?_ ?_) ?_
  all_goals
    refine List.map_congr_left fun j hj => ?_
    rw [List.mem_range] at hj
    rw [byteAt_storeWord _ _ _ _ (by omega)]
  · rw [if_neg (by omega)]
  · rw [if_pos (by omega), show (4 * k + j) % 4 = j by omega]
  · rw [if_neg (by omega)]

theorem toList_storeWords {n : Nat} (b : Bytes n) (k : Nat) (ws : List Word) (h : 4 * (k + ws.length) ≤ n) :
    (storeWords b k ws).toList =
      b.toList.take (4 * k) ++ ws.flatMap wordBytes ++ b.toList.drop (4 * (k + ws.length)) := by
  induction ws generalizing b k with
  | nil => simp [storeWords]
  | cons w ws ih =>
      rw [List.length_cons] at h
      have hfront : (b.toList.take (4 * k) ++ wordBytes w).length = 4 * (k + 1) := by simp; omega
      calc (storeWords b k (w :: ws)).toList = (storeWords (storeWord b k w) (k + 1) ws).toList := rfl
        _ = b.toList.take (4 * k) ++ wordBytes w ++ ws.flatMap wordBytes
              ++ b.toList.drop (4 * (k + (ws.length + 1))) := by
          rw [ih (storeWord b k w) (k + 1) (by omega), toList_storeWord b k w (by omega), List.take_left' hfront,
            show 4 * (k + 1 + ws.length) = 4 * (k + 1) + 4 * ws.length by ring, ← List.drop_drop,
            List.drop_left' hfront, List.drop_drop, show 4 * k + 4 + 4 * ws.length = 4 * (k + (ws.length + 1)) by ring]
        _ = _ := by simp

/-- The offset of a word of a register selects it. -/
theorem locate_regOffset (r : RegName) :
    ∀ k, k < (regRow r).words → locate (regOffset r k) = some (r, k) := by
  cases r <;> decide

/-- The state of a host that has performed its whole script in `n` moves, all else as it was. -/
def scriptDone (n : Nat) (s : State) : State := { s with script := [], schedule := s.schedule.drop n }

/-- A write of a register other than CMD does to every state with the same operands what it does to one. -/
theorem writeReg_eq_withOperands {r : RegName} (k : Nat) (w : Word) {s t : State} (h : r ≠ .cmd)
    (hop : operands t = operands s) : writeReg r k w t = withOperands (operands (writeReg r k w s)) t := by
  have hwrite := writeReg_withOperands k w s t h
  rwa [← hop, withOperands_operands] at hwrite

theorem writeReg_seq {r : RegName} (k : Nat) (w : Word) (s : State) (h : r ≠ .cmd) :
    (writeReg r k w s).seq = s.seq := by
  rw [writeReg_eq_withOperands k w h rfl, withOperands_seq]

/-- A write of a register other than CMD commutes with a change of the host's script and schedule. -/
theorem writeReg_hostSide {r : RegName} (k : Nat) (w : Word) (s : State) (script : List HostOp)
    (schedule : List Agent) (h : r ≠ .cmd) :
    writeReg r k w { s with script := script, schedule := schedule } =
      { writeReg r k w s with script := script, schedule := schedule } := by
  have hself := writeReg_eq_withOperands k w (s := s) (t := s) h rfl
  have hmoved := writeReg_eq_withOperands k w (s := s) (t := { s with script := script, schedule := schedule }) h rfl
  generalize operands (writeReg r k w s) = o at hself hmoved
  rw [hmoved, hself]
  rfl

/-- Writes of consecutive words of a register, when the host has the moves. -/
theorem run_writeWords {r : RegName} (hcmd : r ≠ .cmd) (ws : List Word) {k : Nat} {s : State}
    (hwords : k + ws.length ≤ (regRow r).words) (hmoves : s.HostMoves ws.length)
    (hscript : s.script = writeWords r k ws) :
    Host.Core.run Sys2Proof.core ws.length s = .next (writeRegs r k ws (scriptDone ws.length s)) := by
  induction ws generalizing k s with
  | nil => simp [Host.Core.run, writeRegs, scriptDone, ← show s.script = [] from hscript]
  | cons w ws ih =>
      rw [List.length_cons] at hwords
      have hstep : step s = .next { writeReg r k w s with
          script := writeWords r (k + 1) ws, schedule := s.schedule.tail } := by
        rw [step_hostTurn (hmoves.hostTurn hscript), hostStep, regWrite_of_locate _ _ (locate_regOffset r k (by omega)),
          ← writeReg_hostSide k w s _ _ hcmd]
        rfl
      refine (run_succ_of_next ws.length hstep).trans ((ih (by omega) ?_ rfl).trans ?_)
      · exact hmoves.tail (by rw [← writeReg_seq k w s hcmd]; exact id) rfl
      · rw [scriptDone, List.drop_tail, ← writeReg_hostSide k w s _ _ hcmd]
        rfl

/-- A LOADB of a buffer whose update of the state is `put`: the bytes stand in front of the buffer's other bytes. -/
theorem run_loadb {n : Nat} {r : RegName} (put : Bytes n → State) (b : Bytes n) {bytes : List Byte} {s : State}
    (hput : ∀ c k w, writeReg r k w (put c) = put (storeWord c k w))
    (hb : put b = scriptDone (bytes.length / 4) s) (hcmd : r ≠ .cmd) (hn : n = 4 * (regRow r).words)
    (hmod : bytes.length % 4 = 0) (hlen : bytes.length ≤ n)
    (hscript : s.script = (ScriptLine.loadb r bytes).expand) (hmoves : s.HostMoves (bytes.length / 4)) :
    ∃ b' : Bytes n, Host.Core.run Sys2Proof.core (bytes.length / 4) s = .next (put b') ∧
      b'.toList = bytes ++ b.toList.drop bytes.length := by
  have hbytes := flatMap_wordBytes_wordsOfBytes bytes hmod
  have hcount : bytes.length = 4 * (wordsOfBytes bytes).length := by
    rw [← length_flatMap_wordBytes, hbytes]
  have hmovesCount : bytes.length / 4 = (wordsOfBytes bytes).length := by omega
  rw [hmovesCount] at hb hmoves ⊢
  refine ⟨storeWords b 0 (wordsOfBytes bytes), ?_, ?_⟩
  · rw [run_writeWords hcmd _ (by omega) hmoves hscript, ← hb, writeRegs, storeWords,
      List.foldl_hom put fun c p => hput c p.2 p.1]
  · rw [toList_storeWords b 0 _ (by omega), hbytes, Nat.zero_add, ← hcount]
    simp

/-- Settles O21: each of the four buffers is an operand register, which the writes fill word by word. -/
theorem loadbFillsTheBuffer : Obligations.LoadbFillsTheBuffer := by
  intro bytes s hmod
  exact ⟨
    run_loadb (fun b => { scriptDone (bytes.length / 4) s with keyIn := b }) s.keyIn (fun _ _ _ => rfl) rfl (by decide)
      rfl hmod,
    run_loadb (fun b => { scriptDone (bytes.length / 4) s with ctrIn := b }) s.ctrIn (fun _ _ _ => rfl) rfl (by decide)
      rfl hmod,
    run_loadb (fun b => { scriptDone (bytes.length / 4) s with entIn := b }) s.entIn (fun _ _ _ => rfl) rfl (by decide)
      rfl hmod,
    run_loadb (fun b => { scriptDone (bytes.length / 4) s with adIn := b }) s.adIn (fun _ _ _ => rfl) rfl (by decide)
      rfl hmod⟩

end Sys2Proof.Machine
end

section
/-! SUPPORT. The key expansion word by word (40_aes_core.md R130 to R135), with O25 and O26. -/

namespace Sys2Proof.Machine

/-! The expansion only appends, and what it appends at word i is made of the words before it. -/

theorem isPrefix_expandWords (n : Nat) (ws : List KeyWord) : ws <+: expandWords n ws := by
  induction n generalizing ws with
  | zero => exact List.prefix_rfl
  | succ n ih => exact (List.prefix_append ws [nextKeyWord ws]).trans (ih _)

theorem length_expandWords (n : Nat) (ws : List KeyWord) : (expandWords n ws).length = ws.length + n := by
  induction n generalizing ws with
  | zero => rfl
  | succ n ih => rw [expandWords, ih, List.length_append, List.length_singleton]; omega

theorem keyWordAt_of_isPrefix {ws ws' : List KeyWord} {i : Nat} (h : ws <+: ws') (hi : i < ws.length) :
    keyWordAt ws' i = keyWordAt ws i := by
  obtain ⟨rest, rfl⟩ := h
  exact List.getD_append _ _ _ _ hi

/-- Every word that the expansion appends is the next word of the words before it. -/
theorem keyWordAt_expandWords (n : Nat) (ws : List KeyWord) {i : Nat} (hi : ws.length ≤ i)
    (hn : i < ws.length + n) : keyWordAt (expandWords n ws) i = nextKeyWord ((expandWords n ws).take i) := by
  induction n generalizing ws with
  | zero => omega
  | succ n ih =>
      have hlength : (ws ++ [nextKeyWord ws]).length = ws.length + 1 := by simp
      rcases hi.eq_or_lt with rfl | hlater
      · rw [← List.prefix_iff_eq_take.mp (isPrefix_expandWords (n + 1) ws), expandWords,
          keyWordAt_of_isPrefix (isPrefix_expandWords n _) (by omega)]
        simp [keyWordAt]
      · exact ih _ (by omega) (by omega)

/-- The temp of R130 for word `i`, from word `i - 1`. -/
def keyTemp (i : Nat) (prev : KeyWord) : KeyWord :=
  if i % 8 = 0 then xorBytes (subWord (rotWord prev)) (rconWord (i / 8))
  else if i % 8 = 4 then subWord prev
  else prev

theorem keyTemp_of_mod_eq_zero {i : Nat} (h : i % 8 = 0) (prev : KeyWord) :
    keyTemp i prev = xorBytes (subWord (rotWord prev)) (rconWord (i / 8)) := if_pos h

theorem keyTemp_of_mod_eq_four {i : Nat} (h : i % 8 = 4) (prev : KeyWord) : keyTemp i prev = subWord prev := by
  rw [keyTemp, if_neg (by omega), if_pos h]

theorem keyTemp_of_mod_ne {i : Nat} (h0 : i % 8 ≠ 0) (h4 : i % 8 ≠ 4) (prev : KeyWord) : keyTemp i prev = prev := by
  rw [keyTemp, if_neg h0, if_neg h4]

/-- The next word of the first `i` words of a list, by the list's own words. -/
theorem nextKeyWord_take {ws : List KeyWord} {i : Nat} (hpos : 0 < i) (hi : i ≤ ws.length) :
    nextKeyWord (ws.take i) = xorBytes (keyWordAt ws (i - 8)) (keyTemp i (keyWordAt ws (i - 1))) := by
  have hlength : (ws.take i).length = i := List.length_take_of_le hi
  have hword : ∀ j, j < i → keyWordAt (ws.take i) j = keyWordAt ws j := fun j hj =>
    (keyWordAt_of_isPrefix (List.take_prefix i ws) (by omega)).symm
  rw [← hword (i - 8) (by omega), ← hword (i - 1) (by omega)]
  simp only [nextKeyWord, keyTemp, hlength]

/-! The 60 words of a key, and their place in the serialized schedule. -/

theorem keyWordAt_keyExpansion_key (key : Bytes 32) {i : Nat} (hi : i < 8) :
    keyWordAt (keyExpansion key) i = sliceBytes key (4 * i) 4 := by
  rw [keyExpansion, keyWordAt_of_isPrefix (isPrefix_expandWords 52 _) (by simpa using hi)]
  simp [keyWordAt, hi]

/-- The recurrence of R130. -/
theorem keyWordAt_keyExpansion_step (key : Bytes 32) {i : Nat} (h8 : 8 ≤ i) (h60 : i < 60) :
    keyWordAt (keyExpansion key) i =
      xorBytes (keyWordAt (keyExpansion key) (i - 8)) (keyTemp i (keyWordAt (keyExpansion key) (i - 1))) := by
  have hlength : (keyExpansion key).length = 60 := by simp [keyExpansion, length_expandWords]
  rw [← nextKeyWord_take (by omega) (by omega)]
  exact keyWordAt_expandWords 52 _ (by simpa using h8) (by simpa using h60)

/-- Word `i` of the expansion stands at bytes 4i to 4i + 3 of the schedule (R133). -/
theorem sliceBytes_keySchedule (key : Bytes 32) {i : Nat} (hi : i < 60) :
    sliceBytes (keySchedule key) (4 * i) 4 = keyWordAt (keyExpansion key) i := by
  refine ext_byteAt fun j hj => ?_
  rw [byteAt_sliceBytes _ _ _ _ hj, keySchedule, byteAt_tabulate_of_lt _ _ (by omega)]
  dsimp only
  rw [show (4 * i + j) / 4 = i by omega, show (4 * i + j) % 4 = j by omega]

/-- The recurrence of R130 on the serialized schedule. -/
theorem sliceBytes_keySchedule_step (key : Bytes 32) {i : Nat} (h8 : 8 ≤ i) (h60 : i < 60) :
    sliceBytes (keySchedule key) (4 * i) 4 =
      xorBytes (sliceBytes (keySchedule key) (4 * (i - 8)) 4)
        (keyTemp i (sliceBytes (keySchedule key) (4 * (i - 1)) 4)) := by
  rw [sliceBytes_keySchedule key h60, sliceBytes_keySchedule key (by omega), sliceBytes_keySchedule key (by omega)]
  exact keyWordAt_keyExpansion_step key h8 h60

/-! The two commands. -/

/-- A command that ends with OK returns SEQ to IDLE, writes ERR and changes nothing else. -/
theorem finish_ok (s : State) : finish .ok s = { s with seq := .idle, err := .ok } := by
  simp [finish]

/-- Settles O25: the schedule is that of the key in the snapshot, its first words are the key, and each later word is
given by the recurrence, with the temp of its index. -/
theorem aesExpandCompletes : Obligations.AesExpandCompletes := by
  refine ⟨decode_encode (.aesExpand ⟨false, false, false⟩), fun f s g hrun => ⟨keySchedule g.keyIn, ?_, ?_⟩⟩
  · exact (complete_of_run _ hrun).trans (congrArg _ (finish_ok _))
  · refine ⟨fun i hi => ?_, fun i h8 h60 h0 => ?_, fun i h8 h60 h4 => ?_, fun i h8 h60 h0 h4 => ?_⟩
    · exact (sliceBytes_keySchedule _ (by omega)).trans (keyWordAt_keyExpansion_key _ hi)
    · exact (sliceBytes_keySchedule_step _ h8 h60).trans (congrArg _ (keyTemp_of_mod_eq_zero h0 _))
    · exact (sliceBytes_keySchedule_step _ h8 h60).trans (congrArg _ (keyTemp_of_mod_eq_four h4 _))
    · exact (sliceBytes_keySchedule_step _ h8 h60).trans (congrArg _ (keyTemp_of_mod_ne h0 h4 _))

/-! The schedule as the host reads it. -/

theorem status_bit_rksValid (s : State) : (regReadValue 0x004 s).getLsbD 3 = s.rksValid := by
  obtain ⟨-, -, -, hvalid, -⟩ := statusWord_bits s
  rw [regReadValue_status s (by decide), hvalid]

/-- An offset selects the word of a register that lies at its word of the window. -/
theorem locate_of_wordIndex {off : BitVec 32} {r : RegName} {k : Nat} (hk : k < (regRow r).words)
    (h : wordIndex off = (regRow r).base / 4 + k) : locate off = some (r, k) := by
  have hl := locate_regOffset r k hk
  rw [← hl, locate, locate, h, (wordIndex_of_locate hl).1]

/-- The words 0x100 to 0x1EC of the window are the words of RKS. -/
theorem regReadValue_rks {off : BitVec 32} (s : State) (h : 64 ≤ wordIndex off ∧ wordIndex off < 124) :
    regReadValue off s = wordOf s.rks (wordIndex off - 64) := by
  have hrow : (regRow .rks).base = 0x100 ∧ (regRow .rks).words = 60 := by decide
  rw [regReadValue_of_locate s (locate_of_wordIndex (r := .rks) (k := wordIndex off - 64) (by omega) (by omega)),
    readReg]

/-- Settles O26: the command leaves zero bytes in RKS, whose words the offsets select. -/
theorem rksClearCompletes : Obligations.RksClearCompletes := by
  refine ⟨decode_encode (.rksClear ⟨false, false, false⟩), fun f s g hrun => ?_⟩
  refine ⟨_, ?_, rfl, status_bit_rksValid _, fun off hlow hhigh => ?_⟩
  · exact (complete_of_run _ hrun).trans (congrArg _ (finish_ok _))
  · have hindex : (off.extractLsb' 2 10).toNat = wordIndex off := rfl
    exact (regReadValue_rks _ (by omega)).trans (wordOf_zeroBytes 240 _)

end Sys2Proof.Machine
end

section
/-! SUPPORT. The S-box and the round's byte stages (40_aes_core.md R122 to R125), with O23 and O24. -/

namespace Sys2Proof.Machine

/-- The affine map of R122. -/
def sboxAffine (b : Byte) : Byte :=
  b ^^^ b.rotateLeft 1 ^^^ b.rotateLeft 2 ^^^ b.rotateLeft 3 ^^^ b.rotateLeft 4 ^^^ 0x63

/-- The inverse of the affine map of R122. -/
def sboxAffineInv (c : Byte) : Byte := c.rotateLeft 1 ^^^ c.rotateLeft 3 ^^^ c.rotateLeft 6 ^^^ 0x05

theorem sboxAffine_sboxAffineInv : ∀ c : Byte, sboxAffine (sboxAffineInv c) = c := by decide

/-- What the table holds at `a`, with the affine map undone, is the inverse of `a`. -/
theorem gmul_sboxAffineInv_sbox : ∀ a : Byte, a ≠ 0 → gmul a (sboxAffineInv (sbox a)) = 1 := by decide

/-- Settles O23: the inverse is the table's entry with the affine map undone. -/
theorem sboxIsInverseThenAffine : Obligations.SboxIsInverseThenAffine := by
  refine ⟨fun a => ⟨sboxAffineInv (sbox a), ?_, (sboxAffine_sboxAffineInv (sbox a)).symm⟩, by decide⟩
  split
  · subst a; decide
  · exact gmul_sboxAffineInv_sbox a ‹_›

theorem byteAt_subBytes (s : Bytes 16) {n : Nat} (hn : n < 16) : byteAt (subBytes s) n = sbox (byteAt s n) :=
  byteAt_tabulate_of_lt _ n hn

/-- Byte `n` stands in row `n mod 4` and column `n div 4` (R123). -/
theorem byteAt_shiftRows (s : Bytes 16) {n : Nat} (hn : n < 16) :
    byteAt (shiftRows s) n = byteAt s (n % 4 + 4 * ((n / 4 + n % 4) % 4)) :=
  byteAt_tabulate_of_lt _ n hn

/-- SubBytes works on each byte alone, and ShiftRows only moves bytes. -/
theorem subBytes_shiftRows (s : Bytes 16) : subBytes (shiftRows s) = shiftRows (subBytes s) := by
  refine ext_byteAt fun n hn => ?_
  rw [byteAt_subBytes _ hn, byteAt_shiftRows _ hn, byteAt_shiftRows _ hn, byteAt_subBytes _ (by omega)]

/-- Settles O24: byte by byte, a byte of row r and column c being byte r + 4c of the state. -/
theorem shiftRowsRotatesRows : Obligations.ShiftRowsRotatesRows := by
  refine ⟨fun s r c hr hc => ?_, by decide, subBytes_shiftRows⟩
  rw [byteAt_shiftRows s (by omega), show (r + 4 * c) % 4 = r by omega, show (r + 4 * c) / 4 = c by omega]

end Sys2Proof.Machine
end

section
/-! SUPPORT. The 128-bit counter as a number (41_ctr_engine.md R160, R161; 00_scope.md R8), with O27 and O28. -/

namespace Sys2Proof.Machine

/-! The value of a byte string and its digits. -/

theorem bePrefix_congr {n : Nat} {a b : Bytes n} {m : Nat} (h : ∀ j, j < m → byteAt a j = byteAt b j) :
    bePrefix a m = bePrefix b m := by
  rw [bePrefix, bePrefix, List.map_congr_left fun j hj => h j (List.mem_range.mp hj)]

theorem bePrefix_lt {n : Nat} (b : Bytes n) (m : Nat) : bePrefix b m < 256 ^ m := by
  induction m with
  | zero => exact Nat.one_pos
  | succ m ih =>
      have hbyte : (byteAt b m).toNat < 256 := (byteAt b m).isLt
      rw [bePrefix_succ, pow_succ]
      omega

/-- The last `k` digits dropped. -/
theorem bePrefix_div {n : Nat} (b : Bytes n) (m k : Nat) : bePrefix b (m + k) / 256 ^ k = bePrefix b m := by
  induction k with
  | zero => exact Nat.div_one _
  | succ k ih =>
      have hbyte : (byteAt b (m + k)).toNat < 256 := (byteAt b (m + k)).isLt
      have hlast : bePrefix b (m + k + 1) / 256 = bePrefix b (m + k) := by rw [bePrefix_succ]; omega
      rw [pow_succ', ← Nat.div_div_eq_div_mul, ← Nat.add_assoc, hlast, ih]

theorem beNat_lt (c : Bytes 16) : beNat c < 2 ^ 128 := beNat_eq_bePrefix c ▸ bePrefix_lt c 16

/-- The value determines the byte string. -/
theorem beBytes_beNat {n : Nat} (b : Bytes n) : beBytes n (beNat b) = b := by
  refine ext_byteAt fun i hi => ?_
  have hdigits := bePrefix_div b (i + 1) (n - 1 - i)
  rw [show i + 1 + (n - 1 - i) = n by omega, ← beNat_eq_bePrefix, bePrefix_succ] at hdigits
  rw [byteAt_beBytes _ _ _ hi, hdigits]
  apply BitVec.eq_of_toNat_eq
  have hbyte : (byteAt b i).toNat < 256 := (byteAt b i).isLt
  rw [BitVec.toNat_ofNat]
  omega

/-- The first `m` digits of a number written with `n` of them. -/
theorem bePrefix_beBytes (n v : Nat) {m : Nat} (hm : m ≤ n) :
    bePrefix (beBytes n v) m = v / 256 ^ (n - m) % 256 ^ m := by
  induction m with
  | zero => exact (Nat.mod_one _).symm
  | succ m ih =>
      have hpow : v / 256 ^ (n - m) = v / 256 ^ (n - 1 - m) / 256 := by
        rw [Nat.div_div_eq_div_mul, ← pow_succ, show n - 1 - m + 1 = n - m by omega]
      rw [bePrefix_succ, ih (by omega), byteAt_beBytes _ _ _ (by omega), BitVec.toNat_ofNat, hpow, pow_succ' 256 m,
        Nat.mod_mul, show n - (m + 1) = n - 1 - m by omega]
      omega

theorem beNat_beBytes (v : Nat) : beNat (beBytes 16 v) = v % 2 ^ 128 := by
  rw [beNat_eq_bePrefix, bePrefix_beBytes 16 v le_rfl, Nat.sub_self, pow_zero, Nat.div_one,
    show (256 : Nat) ^ 16 = 2 ^ 128 by norm_num]

/-- 16 bytes hold a number modulo 2^128. -/
theorem beBytes_mod (v : Nat) : beBytes 16 (v % 2 ^ 128) = beBytes 16 v := by
  rw [← beNat_beBytes, beBytes_beNat]

/-! The ripple. -/

theorem byteAt_setByte {n : Nat} (b : Bytes n) (i : Nat) (x : Byte) {j : Nat} (hj : j < n) :
    byteAt (setByte b i x) j = if j = i then x else byteAt b j :=
  byteAt_tabulate_of_lt _ j hj

theorem bePrefix_setByte {n : Nat} (b : Bytes n) {i : Nat} (x : Byte) (hi : i < n) :
    bePrefix (setByte b i x) i = bePrefix b i :=
  bePrefix_congr fun j hj => by rw [byteAt_setByte b i x (by omega), if_neg (by omega)]

/-- The ripple from byte i - 1 down leaves the bytes from i on alone. -/
theorem byteAt_incFrom (c : Bytes 16) {i j : Nat} (hij : i ≤ j) (hj : j < 16) :
    byteAt (incFrom c i) j = byteAt c j := by
  induction i generalizing c with
  | zero => rfl
  | succ i ih =>
      have hset : ∀ x, byteAt (setByte c i x) j = byteAt c j := fun x => by
        rw [byteAt_setByte c i x hj, if_neg (by omega)]
      simp only [incFrom]
      split
      · exact hset _
      · exact (ih _ (by omega)).trans (hset _)

/-- The ripple adds one to the number in the bytes it passes over. -/
theorem bePrefix_incFrom (c : Bytes 16) {i : Nat} (hi : i ≤ 16) :
    bePrefix (incFrom c i) i = (bePrefix c i + 1) % 256 ^ i := by
  induction i generalizing c with
  | zero => exact (Nat.mod_one _).symm
  | succ i ih =>
      have hx : (byteAt c i + 1).toNat = ((byteAt c i).toNat + 1) % 256 := BitVec.toNat_add _ _
      have hbyte : (byteAt c i).toNat < 256 := (byteAt c i).isLt
      have hlow : byteAt (setByte c i (byteAt c i + 1)) i = byteAt c i + 1 := by
        rw [byteAt_setByte _ _ _ (by omega), if_pos rfl]
      simp only [incFrom]
      split
      · rename_i hnz
        have hcarry : (byteAt c i + 1).toNat ≠ 0 := fun h => hnz (BitVec.eq_of_toNat_eq h)
        have hfits := bePrefix_lt c i
        rw [bePrefix_succ, bePrefix_succ, hlow, bePrefix_setByte c _ (by omega), pow_succ, Nat.mod_eq_of_lt] <;> omega
      · rename_i hz
        have hcarry : (byteAt c i + 1).toNat = 0 := congrArg BitVec.toNat (not_not.mp hz)
        have hsum : bePrefix c i * 256 + (byteAt c i).toNat + 1 = (bePrefix c i + 1) * 256 := by omega
        rw [bePrefix_succ, byteAt_incFrom _ le_rfl (by omega), hlow, hcarry, ih _ (by omega),
          bePrefix_setByte c _ (by omega), bePrefix_succ, hsum, pow_succ, Nat.mul_mod_mul_right, Nat.add_zero]

/-! Addition to a counter, of which the increment is the case of one. -/

theorem beNat_inc128 (c : Bytes 16) : beNat (inc128 c) = (beNat c + 1) % 2 ^ 128 := by
  rw [beNat_eq_bePrefix, beNat_eq_bePrefix]
  exact bePrefix_incFrom c le_rfl

theorem inc128_eq_add128 (c : Bytes 16) : inc128 c = add128 c 1 := by
  rw [← beBytes_beNat (inc128 c), beNat_inc128, add128]

theorem add128_beBytes (v n : Nat) : add128 (beBytes 16 v) n = beBytes 16 (v + n) := by
  rw [add128, beNat_beBytes, Nat.mod_add_mod, beBytes_mod]

theorem inc128_beBytes (v : Nat) : inc128 (beBytes 16 v) = beBytes 16 (v + 1) := by
  rw [inc128_eq_add128, add128_beBytes]

theorem add128_add128 (c : Bytes 16) (m n : Nat) : add128 (add128 c m) n = add128 c (m + n) := by
  rw [← beBytes_beNat c, add128_beBytes, add128_beBytes, add128_beBytes, Nat.add_assoc]

theorem add128_zero (c : Bytes 16) : add128 c 0 = c := by
  rw [← beBytes_beNat c, add128_beBytes, Nat.add_zero]

theorem add128_eq_iterate (c : Bytes 16) (n : Nat) : add128 c n = inc128^[n] c := by
  induction n with
  | zero => exact add128_zero c
  | succ n ih => rw [Function.iterate_succ_apply', ← ih, inc128_eq_add128, add128_add128]

/-- Settles O27: the increment adds one to the counter's value, and the value determines the counter. -/
theorem incrementIsBigEndianSuccessor : Obligations.IncrementIsBigEndianSuccessor := by
  refine ⟨inc128_eq_add128, beNat_inc128, inc128_beBytes 0, inc128_beBytes 0xff, ?_, inc128_beBytes (2 ^ 127 - 1)⟩
  exact (inc128_beBytes (2 ^ 128 - 1)).trans (beBytes_mod (2 ^ 128)).symm

/-- Settles O28, by induction on the number of increments. -/
theorem addIsIteratedIncrement : Obligations.AddIsIteratedIncrement :=
  ⟨fun _ _ => rfl, add128_eq_iterate, add128_zero⟩

end Sys2Proof.Machine
end

section
/-! SUPPORT. The keystream as a stream of whole blocks, and the two paths of the engine (41_ctr_engine.md R162 to R167,
R174), with O29, O30 and O31. -/

namespace Sys2Proof.Machine

/-! The encryptions of successive counters, with which every keystream begins. -/

/-- The encryptions of the first `k` counters from `c`, whole. -/
def blockStream (rk : Schedule) (c : Bytes 16) (k : Nat) : List Byte :=
  (List.range k).flatMap fun i => (aesEncrypt rk (add128 c i)).toList

theorem blockStream_one (rk : Schedule) (c : Bytes 16) : blockStream rk c 1 = (aesEncrypt rk c).toList := by
  simp [blockStream, add128_zero]

theorem length_blockStream (rk : Schedule) (c : Bytes 16) (k : Nat) : (blockStream rk c k).length = 16 * k := by
  simp [blockStream, List.length_flatMap, Nat.mul_comm]

theorem blockStream_add (rk : Schedule) (c : Bytes 16) (m k : Nat) :
    blockStream rk c (m + k) = blockStream rk c m ++ blockStream rk (add128 c m) k := by
  simp [blockStream, List.range_add, List.flatMap_append, List.flatMap_map, add128_add128]

theorem blockStream_succ (rk : Schedule) (c : Bytes 16) (k : Nat) :
    blockStream rk c (k + 1) = (aesEncrypt rk c).toList ++ blockStream rk (inc128 c) k := by
  rw [Nat.add_comm, blockStream_add, blockStream_one, inc128_eq_add128]

theorem getElem?_blockStream (rk : Schedule) (c : Bytes 16) {k j : Nat} (h : j < 16 * k) :
    (blockStream rk c k)[j]? = some (byteAt (aesEncrypt rk (add128 c (j / 16))) (j % 16)) := by
  have hblock : blockStream rk c k = blockStream rk c (j / 16) ++
      ((aesEncrypt rk (add128 c (j / 16))).toList ++
        blockStream rk (inc128 (add128 c (j / 16))) (k - j / 16 - 1)) := by
    rw [← blockStream_succ, ← blockStream_add]
    congr 1
    omega
  have hbefore := length_blockStream rk c (j / 16)
  rw [hblock, List.getElem?_append_right (by omega), hbefore, show j - 16 * (j / 16) = j % 16 by omega,
    List.getElem?_append_left (by simp; omega), byteAt_of_lt _ _ (by omega)]
  simp

/-! The keystream. -/

/-- A keystream is the start of every block stream that is long enough. -/
theorem keystream_eq_take (rk : Schedule) (c : Bytes 16) {l k : Nat} (h : l ≤ 16 * k) :
    keystream rk c l = (blockStream rk c k).take l := by
  have hfits : l ≤ 16 * nblocks l := by rw [nblocks]; omega
  have hfewest : nblocks l ≤ k := by rw [nblocks]; omega
  obtain ⟨more, rfl⟩ := Nat.exists_eq_add_of_le hfewest
  rw [blockStream_add, List.take_append_of_le_length (by rw [length_blockStream]; exact hfits)]
  rfl

theorem length_keystream (rk : Schedule) (c : Bytes 16) (l : Nat) : (keystream rk c l).length = l := by
  rw [keystream_eq_take rk c (k := l) (by omega), List.length_take, length_blockStream]
  omega

theorem keystream_zero (rk : Schedule) (c : Bytes 16) : keystream rk c 0 = [] := rfl

theorem keystream_blocks (rk : Schedule) (c : Bytes 16) (m : Nat) : keystream rk c (16 * m) = blockStream rk c m := by
  rw [keystream_eq_take rk c le_rfl, ← length_blockStream rk c m, List.take_length]

/-- After whole blocks the keystream goes on from the counter they leave. -/
theorem keystream_blocks_add (rk : Schedule) (c : Bytes 16) (m l : Nat) :
    keystream rk c (16 * m + l) = blockStream rk c m ++ keystream rk (add128 c m) l := by
  rw [keystream_eq_take rk c (k := m + l) (by omega), keystream_eq_take rk _ (k := l) (by omega), blockStream_add,
    ← length_blockStream rk c m, List.take_length_add_append]

theorem counterAfter_blocks_add (c : Bytes 16) (m l : Nat) :
    counterAfter c (16 * m + l) = counterAfter (add128 c m) l := by
  rw [counterAfter, counterAfter, add128_add128, nblocks, nblocks]
  congr 1
  omega

/-- Settles O29: the keystream is cut from the stream of whole blocks, byte j of which lies in block j div 16. -/
theorem keystreamEncryptsSuccessiveCounters : Obligations.KeystreamEncryptsSuccessiveCounters := by
  refine fun rk c l => ⟨length_keystream rk c l, fun j hj => ?_, ?_, keystream_zero rk c, add128_zero c⟩
  · rw [keystream_eq_take rk c (k := l) (by omega), List.getElem?_take_of_lt hj, getElem?_blockStream rk c (by omega)]
  · have hpartial : nblocks l = l / 16 + if l % 16 = 0 then 0 else 1 := by rw [nblocks]; split <;> omega
    rw [counterAfter, hpartial]

/-- Settles O31: both keystreams are cut from one stream of whole blocks, and after whole blocks the stream starts
again from the counter they leave. -/
theorem keystreamSplitsAtWholeBlocks : Obligations.KeystreamSplitsAtWholeBlocks := by
  refine fun rk c l1 l hle => ⟨?_, fun hwhole => ?_, fun n => ?_⟩
  · rw [keystream_eq_take rk c (k := l) (by omega), keystream_eq_take rk c (l := l) (k := l) (by omega),
      List.take_take, min_eq_left hle]
  · obtain ⟨m, rfl⟩ := Nat.dvd_of_mod_eq_zero hwhole
    have hblocks : nblocks (16 * m) = m := by rw [nblocks]; omega
    rw [counterAfter, hblocks, keystream_blocks, ← keystream_blocks_add, Nat.add_sub_cancel' hle]
  · rw [keystream_blocks_add, ← length_blockStream rk c, List.drop_left]
    rfl

/-! The scalar path and the 4-lane path. -/

/-- One pass of the scalar loop: a block, or what the request leaves of it, and then the rest (R164). -/
theorem keystream_scalar_pass (rk : Schedule) (c : Bytes 16) (l : Nat) :
    (aesEncrypt rk c).toList.take (min 16 l) ++ keystream rk (inc128 c) (l - min 16 l) = keystream rk c l := by
  rcases Nat.le_total l 16 with hlast | hmore
  · rw [min_eq_right hlast, Nat.sub_self, keystream_zero, List.append_nil, ← blockStream_one,
      keystream_eq_take rk c (k := 1) hlast]
  · obtain ⟨rest, rfl⟩ := Nat.exists_eq_add_of_le hmore
    rw [min_eq_left hmore, Nat.add_sub_cancel_left, List.take_of_length_le (by simp), ← blockStream_one,
      inc128_eq_add128]
    exact (keystream_blocks_add rk c 1 rest).symm

theorem counterAfter_scalar_pass (c : Bytes 16) {l : Nat} (hl : l ≠ 0) :
    counterAfter (inc128 c) (l - min 16 l) = counterAfter c l := by
  rw [counterAfter, counterAfter, inc128_eq_add128, add128_add128, nblocks, nblocks]
  congr 1
  omega

theorem scalarLoop_eq (rk : Schedule) {fuel : Nat} (c : Bytes 16) {l : Nat} (h : l ≤ 16 * fuel) :
    scalarLoop rk fuel c l = (keystream rk c l, counterAfter c l) := by
  induction fuel generalizing c l with
  | zero =>
      obtain rfl : l = 0 := by omega
      exact congrArg _ (add128_zero c).symm
  | succ fuel ih =>
      rw [scalarLoop]
      split
      · rename_i hzero
        subst hzero
        exact congrArg _ (add128_zero c).symm
      · rename_i hpos
        rw [ih (inc128 c) (by omega)]
        exact Prod.ext (keystream_scalar_pass rk c l) (counterAfter_scalar_pass c hpos)

theorem keystreamScalar_eq (rk : Schedule) (c : Bytes 16) (l : Nat) :
    keystreamScalar rk c l = (keystream rk c l, counterAfter c l) :=
  scalarLoop_eq rk c (by rw [nblocks]; omega)

/-- Rounds in step on all lanes are the rounds of each lane. -/
theorem laneRounds_eq_map (rk : Schedule) (n r : Nat) (l : Lanes) :
    laneRounds rk n r l = l.map (fullRounds rk n r) := by
  induction n generalizing r l with
  | zero => rfl
  | succ n ih => exact ih _ _

theorem group4_eq (rk : Schedule) (c : Bytes 16) : group4 rk c = (blockStream rk c 4, add128 c 4) := by
  refine Prod.ext ?_ ?_
  · rw [blockStream_succ, blockStream_succ, blockStream_succ, blockStream_one]
    simp only [group4, laneRounds_eq_map, Lanes.map, aesEncrypt, List.append_assoc]
  · simp only [group4, inc128_eq_add128, add128_add128]

/-- However many groups the engine takes, the scalar path finishes the same keystream. -/
theorem engineLoop_eq (rk : Schedule) (fuel : Nat) (c : Bytes 16) (l : Nat) :
    engineLoop rk fuel c l = (keystream rk c l, counterAfter c l) := by
  induction fuel generalizing c l with
  | zero => exact keystreamScalar_eq rk c l
  | succ fuel ih =>
      rw [engineLoop]
      split
      · rename_i hgroup
        obtain ⟨rest, rfl⟩ : ∃ rest, l = 16 * 4 + rest := Nat.exists_eq_add_of_le hgroup
        rw [show 16 * 4 + rest - Config.groupBytes = rest from Nat.add_sub_cancel_left .., group4_eq]
        dsimp only
        rw [ih]
        exact Prod.ext (keystream_blocks_add rk c 4 rest).symm (counterAfter_blocks_add c 4 rest).symm
      · exact keystreamScalar_eq rk c l

theorem engineKeystream_eq (rk : Schedule) (c : Bytes 16) (l : Nat) :
    engineKeystream rk c l = (keystream rk c l, counterAfter c l) :=
  engineLoop_eq rk _ c l

/-- Settles O30: each path is the reference keystream, the scalar one by induction on its blocks and the engine by
induction on its groups. -/
theorem parallelAndScalarPathsAgree : Obligations.ParallelAndScalarPathsAgree :=
  fun rk c l => ⟨(engineKeystream_eq rk c l).trans (keystreamScalar_eq rk c l).symm, keystreamScalar_eq rk c l⟩

end Sys2Proof.Machine
end

section
/-! SUPPORT. The keystream and counter commands (41_ctr_engine.md R169 to R172), with O32 to O36. -/

namespace Sys2Proof.Machine

/-- The keystream commands commit the reference keystream and the counter after it. -/
theorem commitKeystream_eq (rk : Schedule) (c : Bytes 16) (l : Nat) (s : State) :
    commitKeystream rk c l s =
      { s with seq := .idle, err := .ok, out := keystream rk c l, ctrOut := add128 c (nblocks l) } := by
  rw [commitKeystream, engineKeystream_eq, finish_ok]
  rfl

theorem exec_aesExpand_run (f : CmdFlags) {s : State} {g : Snapshot} (h : s.seq = .run g) :
    exec (.aesExpand f) s = .next (finish .ok { s with rks := keySchedule g.keyIn, rksValid := true }) :=
  complete_of_run _ h

theorem exec_aesCtr_run (f : CmdFlags) {s : State} {g : Snapshot} (h : s.seq = .run g) :
    exec (.aesCtr f) s = .next (commitKeystream (keySchedule g.keyIn) g.ctrIn g.len.toNat s) :=
  complete_of_run _ h

theorem exec_aesCtrRks_run_valid (f : CmdFlags) {s : State} {g : Snapshot} (h : s.seq = .run g)
    (hvalid : g.rksValid = true) :
    exec (.aesCtrRks f) s = .next (commitKeystream g.rks g.ctrIn g.len.toNat s) :=
  (complete_of_run _ h).trans (congrArg _ (if_pos hvalid))

theorem exec_aesCtrRks_run_invalid (f : CmdFlags) {s : State} {g : Snapshot} (h : s.seq = .run g)
    (hvalid : g.rksValid = false) : exec (.aesCtrRks f) s = .next (finish .notReady s) :=
  (complete_of_run _ h).trans (congrArg _ (if_neg (by simp [hvalid])))

/-- From counter zero the counter after is the number of blocks. -/
theorem add128_zeroBytes (n : Nat) : add128 (zeroBytes 16) n = beBytes 16 n := by
  rw [← beBytes_zero, add128_beBytes, Nat.zero_add]

/-- Settles O32: the engine's keystream is the reference keystream. -/
theorem aesCtrCompletes : Obligations.AesCtrCompletes :=
  ⟨decode_encode (.aesCtr ⟨false, false, false⟩), fun f s _ hrun =>
    (exec_aesCtr_run f hrun).trans (congrArg _ (commitKeystream_eq _ _ _ s))⟩

/-- Settles O33: as O32 from the counter zero, to which the number of blocks is added. -/
theorem aesCtrZeroivCompletes : Obligations.AesCtrZeroivCompletes := by
  refine ⟨decode_encode (.aesCtrZeroiv ⟨false, false, false⟩), fun f s g hrun => ?_⟩
  rw [← add128_zeroBytes]
  exact (complete_of_run _ hrun).trans (congrArg _ (commitKeystream_eq _ _ _ s))

/-- Settles O34: the snapshot's RKS_VALID chooses between the keystream of its schedule and NOT_READY. -/
theorem aesCtrRksCompletes : Obligations.AesCtrRksCompletes := fun f s _ hrun =>
  ⟨fun hvalid => (exec_aesCtrRks_run_valid f hrun hvalid).trans (congrArg _ (commitKeystream_eq _ _ _ s)),
    fun hvalid => exec_aesCtrRks_run_invalid f hrun hvalid⟩

/-- Settles O35: both commands run the engine on the schedule of the expanded key, with the same counter and length. -/
theorem storedScheduleGivesTheKeysStream : Obligations.StoredScheduleGivesTheKeysStream := by
  intro f f' f'' s t u g key w w' hrun hexpand hrks
  obtain rfl := Host.Outcome.next.inj ((exec_aesExpand_run f hrun).symm.trans hexpand)
  obtain rfl := Host.Outcome.next.inj ((exec_aesCtrRks_run_valid f' rfl rfl).symm.trans hrks)
  exact ⟨_, exec_aesCtr_run f'' rfl, rfl, rfl, rfl⟩

/-- Settles O36: CTR_INC commits the increment, which is the successor. -/
theorem ctrIncCompletes : Obligations.CtrIncCompletes := by
  refine ⟨decode_encode (.ctrInc ⟨false, false, false⟩), fun f s g hrun => ?_⟩
  have hsuccessor : inc128 g.ctrIn = beBytes 16 ((beNat g.ctrIn + 1) % 2 ^ 128) := inc128_eq_add128 g.ctrIn
  rw [← hsuccessor]
  exact (complete_of_run _ hrun).trans (congrArg _ (finish_ok _))

end Sys2Proof.Machine
end

section
/-! SUPPORT. The update, the mask and the seed material byte by byte (42_drbg.md R201 to R203, R206), with O37 to
O40. -/

namespace Sys2Proof.Machine

theorem toList_appendBytes {n m : Nat} (a : Bytes n) (b : Bytes m) :
    (appendBytes a b).toList = a.toList ++ b.toList := by
  rw [toList_eq_of_byteAt, List.range_add, List.map_append, List.map_map, toList_eq_of_byteAt a, toList_eq_of_byteAt b]
  congr 1 <;> refine List.map_congr_left fun i hi => ?_ <;> have hi := List.mem_range.mp hi
  · rw [byteAt_appendBytes _ _ _ (by omega), if_pos hi]
  · rw [Function.comp_apply, byteAt_appendBytes _ _ _ (by omega), if_neg (by omega), Nat.add_sub_cancel_left]

theorem toList_xorBytes {n : Nat} (a b : Bytes n) :
    (xorBytes a b).toList = List.zipWith (· ^^^ ·) a.toList b.toList := by
  rw [toList_eq_of_byteAt, toList_eq_of_byteAt a, toList_eq_of_byteAt b, List.zipWith_map, List.zipWith_self]
  exact List.map_congr_left fun i _ => byteAt_xorBytes a b i

/-- A working value is its K followed by its V (10_state.md R40). -/
theorem appendBytes_keyPart_ctrPart (t : Bytes 48) : appendBytes (keyPart t) (ctrPart t) = t := by
  refine ext_byteAt fun i hi => ?_
  rw [byteAt_appendBytes _ _ _ hi]
  split
  · rw [keyPart, byteAt_sliceBytes _ _ _ _ ‹_›, Nat.zero_add]
  · rw [ctrPart, byteAt_sliceBytes _ _ _ _ (by omega), Nat.add_sub_cancel' (by omega)]

/-! The update. -/

/-- The three encryptions of an update, before the mixing material (42_drbg.md R201). -/
def updateBlocks (k : Bytes 32) (v : Bytes 16) : Bytes 48 :=
  let c := inc128 v
  threeBlocks (aesEncrypt (keySchedule k) c) (aesEncrypt (keySchedule k) (inc128 c))
    (aesEncrypt (keySchedule k) (inc128 (inc128 c)))

theorem drbgUpdate_eq (k : Bytes 32) (v : Bytes 16) (p : Bytes 48) :
    drbgUpdate k v p = (keyPart (xorBytes (updateBlocks k v) p), ctrPart (xorBytes (updateBlocks k v) p)) := rfl

theorem toList_updateBlocks (k : Bytes 32) (v : Bytes 16) :
    (updateBlocks k v).toList = keystream (keySchedule k) (inc128 v) 48 := by
  have hblocks : keystream (keySchedule k) (inc128 v) 48 = blockStream (keySchedule k) (inc128 v) 3 :=
    keystream_blocks _ _ 3
  rw [hblocks, blockStream_succ, blockStream_succ, blockStream_one, updateBlocks, threeBlocks, toList_appendBytes,
    toList_appendBytes, List.append_assoc]

/-- Settles O39: K and V together are the whole working value, the update's blocks XORed with the material. -/
theorem updateIsKeystreamXorMaterial : Obligations.UpdateIsKeystreamXorMaterial := by
  intro k v p
  dsimp only
  rw [drbgUpdate_eq, ← toList_appendBytes, appendBytes_keyPart_ctrPart, toList_xorBytes, toList_updateBlocks]

/-! The mask. -/

/-- The known answer of 42_drbg.md R202: three blocks of AES-256 under the zero key. -/
theorem seedMask_eq_encryptions :
    seedMask = threeBlocks (aesEncrypt (keySchedule (zeroBytes 32)) (beBytes 16 1))
      (aesEncrypt (keySchedule (zeroBytes 32)) (beBytes 16 2))
      (aesEncrypt (keySchedule (zeroBytes 32)) (beBytes 16 3)) := by
  decide +kernel

theorem updateBlocks_zero : updateBlocks (zeroBytes 32) (zeroBytes 16) = seedMask := by
  rw [seedMask_eq_encryptions, ← beBytes_zero 16, updateBlocks, inc128_beBytes, inc128_beBytes, inc128_beBytes]

/-- An update of the zero state adds the mask to the mixing material (42_drbg.md R206). -/
theorem drbgUpdate_zero (m : Bytes 48) :
    drbgUpdate (zeroBytes 32) (zeroBytes 16) m = (keyPart (xorBytes m seedMask), ctrPart (xorBytes m seedMask)) := by
  rw [drbgUpdate_eq, updateBlocks_zero, xorBytes_comm]

/-- Settles O37: the mask is a known answer of the cipher, and the zero state's update adds it to zero bytes. -/
theorem maskIsTheZeroStateUpdate : Obligations.MaskIsTheZeroStateUpdate := by
  refine ⟨seedMask_eq_encryptions, ?_⟩
  rw [drbgUpdate_zero, zero_xorBytes]

/-- Settles O38: the update of the zero state adds the mask, and XOR with the same bytes undoes itself. -/
theorem updateFromZeroAppliesTheMaskOnce : Obligations.UpdateFromZeroAppliesTheMaskOnce :=
  fun m => ⟨drbgUpdate_zero m, xorBytes_xorBytes_self m seedMask⟩

/-! The seed material. -/

theorem byteAt_seedMaterial (e a : Bytes 48) (n : Nat) {i : Nat} (h : i < 48) :
    byteAt (seedMaterial e a n) i = if i < n then byteAt e i ^^^ byteAt a i else byteAt e i :=
  byteAt_tabulate_of_lt _ i h

/-- Settles O40: byte by byte. -/
theorem seedMaterialXorsTheFirstBytes : Obligations.SeedMaterialXorsTheFirstBytes := by
  refine fun e a n hn => ⟨fun i hi => ?_, fun i hni hi => ?_, fun a' hagree => ext_byteAt fun i hi => ?_,
    ext_byteAt fun i hi => ?_⟩
  · rw [byteAt_seedMaterial e a n (by omega), if_pos hi]
  · rw [byteAt_seedMaterial e a n hi, if_neg (by omega)]
  · rw [byteAt_seedMaterial e a' n hi, byteAt_seedMaterial e a n hi]
    split
    · rw [hagree i ‹_›]
    · rfl
  · rw [byteAt_seedMaterial e a 0 hi, if_neg (Nat.not_lt_zero i)]

end Sys2Proof.Machine
end

section
/-! SUPPORT. Seeding, reseeding, the seeder's setting and the clearing of the context (42_drbg.md R204 to R207, R223,
R228), with O41, O42, O49 and O50. -/

namespace Sys2Proof.Machine

/-- A command that ends with a code that is no program fault returns SEQ to IDLE, writes ERR and changes nothing else
(60_exceptions.md R263, R278). -/
theorem finish_unmarked {code : ResultCode} (h : code.marks = []) (s : State) :
    finish code s = { s with seq := .idle, err := code } := by
  rw [finish, h, List.append_nil]

/-! DRBG_SEED and DRBG_RESEED. -/

/-- The length check of additional data, on the register ADLEN (42_drbg.md R204). -/
theorem badAdLen_iff {adLen : Word} {adv : Bool} :
    badAdLen adLen.toNat adv = true ↔ adLen.toNat > 48 ∨ (adLen ≠ 0 ∧ adv = false) := by
  simp [badAdLen, Config.maxAdata, BitVec.toNat_eq]

theorem badAdLen_eq_false {adLen : Word} {adv : Bool} (hle : adLen.toNat ≤ 48) (hpresent : adLen = 0 ∨ adv = true) :
    badAdLen adLen.toNat adv = false := by
  rw [← Bool.not_eq_true, badAdLen_iff]
  rintro (hlong | ⟨hne, hadv⟩)
  · exact absurd hle (Nat.not_le.mpr hlong)
  · exact hpresent.elim hne (by simp [hadv])

/-- Settles O41: the length check chooses between BAD_LENGTH and the seed, which is the update of the zero state. -/
theorem drbgSeedCompletes : Obligations.DrbgSeedCompletes := by
  refine fun f s g hrun => ⟨fun hle hpresent => ?_, fun hbad => ?_⟩
  · dsimp only
    rw [drbgUpdate_zero]
    refine (complete_of_run _ hrun).trans (congrArg _ ?_)
    rw [badAdLen_eq_false hle hpresent]
    exact finish_ok _
  · refine (complete_of_run _ hrun).trans (congrArg _ ?_)
    rw [if_pos (badAdLen_iff.mpr hbad)]
    exact finish_unmarked rfl s

theorem exec_drbgReseed_uninit (f : CmdFlags) {s : State} {g : Snapshot} (h : s.seq = .run g)
    (hstate : s.ctx.state = .uninit) : exec (.drbgReseed f) s = .next (finish .notReady s) :=
  (complete_of_run _ h).trans (congrArg _ (by simp only [hstate]))

theorem exec_drbgReseed_seeded (f : CmdFlags) {s : State} {g : Snapshot} (h : s.seq = .run g)
    (hstate : s.ctx.state = .seeded) :
    let kv := drbgUpdate s.ctx.k s.ctx.v (seedMaterial g.entIn g.adIn g.adLen.toNat)
    exec (.drbgReseed f) s = .next (if badAdLen g.adLen.toNat f.adv then finish .badLength s
      else finish .ok { s with ctx := { s.ctx with k := kv.1, v := kv.2, rc := 1 } }) :=
  (complete_of_run _ h).trans (congrArg _ (by simp only [hstate]))

/-- Settles O42: the context's state is checked first, then the length. -/
theorem drbgReseedCompletes : Obligations.DrbgReseedCompletes := by
  refine fun f s g hrun => ⟨fun hstate hle hpresent => ?_, exec_drbgReseed_uninit f hrun, fun hstate hbad => ?_⟩
  · dsimp only
    rw [exec_drbgReseed_seeded f hrun hstate, badAdLen_eq_false hle hpresent]
    exact congrArg _ (finish_ok _)
  · rw [exec_drbgReseed_seeded f hrun hstate, if_pos (badAdLen_iff.mpr hbad), finish_unmarked rfl]

/-! DRBG_CONFIG_SEEDER. -/

theorem riOp_toNat (s : State) : (riOp s).toNat = s.riHi.toNat * 2 ^ 32 + s.riLo.toNat := by
  rw [riOp, BitVec.toNat_append, ← Nat.shiftLeft_add_eq_or_of_lt s.riLo.isLt, Nat.shiftLeft_eq]

theorem exec_drbgConfigSeeder_install {f : CmdFlags} {s : State} {g : Snapshot} (h : s.seq = .run g)
    (hf : f.seeder = true) : exec (.drbgConfigSeeder f) s =
      .next { s with seq := .idle, err := .ok, ctx := { s.ctx with seederPresent := true, ri := g.riOp } } :=
  (complete_of_run _ h).trans (congrArg _ ((if_pos hf).trans (finish_ok _)))

theorem exec_drbgConfigSeeder_remove {f : CmdFlags} {s : State} {g : Snapshot} (h : s.seq = .run g)
    (hf : f.seeder = false) : exec (.drbgConfigSeeder f) s = .next { s with
      seq := .idle, err := .ok, ctx := { s.ctx with seederPresent := false, ri := Config.noSeederInterval } } :=
  (complete_of_run _ h).trans (congrArg _ ((if_neg (by simp [hf])).trans (finish_ok _)))

theorem status_bit_prEn (s : State) : (regReadValue 0x004 s).getLsbD 10 = s.ctx.seederPresent := by
  obtain ⟨-, -, -, -, hpr⟩ := statusWord_bits s
  rw [regReadValue_status s (by decide), hpr]

/-- Settles O49: the flag SEEDER chooses the setting, which PR_EN reads. -/
theorem drbgConfigSeederCompletes : Obligations.DrbgConfigSeederCompletes := by
  refine ⟨decode_encode (.drbgConfigSeeder ⟨false, false, true⟩),
    decode_encode (.drbgConfigSeeder ⟨false, false, false⟩), fun f s g hrun => ?_⟩
  refine ⟨exec_drbgConfigSeeder_install hrun, exec_drbgConfigSeeder_remove hrun, fun t hexec => ?_,
    fun _ => riOp_toNat s⟩
  rw [status_bit_prEn]
  cases hf : f.seeder with
  | true => rw [exec_drbgConfigSeeder_install hrun hf] at hexec; cases hexec; rfl
  | false => rw [exec_drbgConfigSeeder_remove hrun hf] at hexec; cases hexec; rfl

/-! DRBG_DESTROY. -/

/-- The words 0x200 to 0x22C of the window are the words of DRBG_K and then of DRBG_V. -/
theorem regReadValue_keyState {off : BitVec 32} (s : State) (h : 128 ≤ wordIndex off ∧ wordIndex off < 140) :
    regReadValue off s = wordOf s.ctx.k (wordIndex off - 128) ∨
    regReadValue off s = wordOf s.ctx.v (wordIndex off - 136) := by
  have hk : (regRow .drbgK).base = 0x200 ∧ (regRow .drbgK).words = 8 := by decide
  have hv : (regRow .drbgV).base = 0x220 ∧ (regRow .drbgV).words = 4 := by decide
  rcases Nat.lt_or_ge (wordIndex off) 136 with hlow | hhigh
  · exact .inl (regReadValue_of_locate s (locate_of_wordIndex (r := .drbgK) (by omega) (by omega)))
  · exact .inr (regReadValue_of_locate s (locate_of_wordIndex (r := .drbgV) (by omega) (by omega)))

/-- PR_EN and DSTATE side by side (10_state.md R25). -/
theorem statusWord_context_bits (s : State) :
    (statusWord s).extractLsb' 8 3 = (BitVec.ofBool s.ctx.seederPresent ++ dstate s.ctx : BitVec 3) := by
  apply BitVec.eq_of_getLsbD_eq
  intro i hi
  simp only [statusWord, BitVec.getLsbD_extractLsb', BitVec.getLsbD_append]
  interval_cases i <;> simp

theorem status_of_cleared {s : State} (h : s.ctx = .cleared) : (regReadValue 0x004 s).extractLsb' 8 3 = 0 := by
  rw [regReadValue_status s (by decide), statusWord_context_bits, h]
  decide

theorem keyState_of_cleared {s : State} (h : s.ctx = .cleared) {off : BitVec 32}
    (hoff : 128 ≤ wordIndex off ∧ wordIndex off < 140) : regReadValue off s = 0 := by
  rcases regReadValue_keyState s hoff with hk | hv
  · rw [hk, h]
    exact wordOf_zeroBytes 32 _
  · rw [hv, h]
    exact wordOf_zeroBytes 16 _

/-- Settles O50: by what the host reads of a cleared context and an empty OUT. -/
theorem drbgDestroyCompletes : Obligations.DrbgDestroyCompletes := by
  refine ⟨decode_encode (.drbgDestroy ⟨false, false, false⟩), fun f s g hrun => ?_⟩
  have hri : DrbgContext.cleared.ri.toNat = 2 ^ 48 := by decide
  refine ⟨_, (complete_of_run _ hrun).trans (congrArg _ (finish_ok _)), rfl, rfl, hri, rfl, rfl,
    status_of_cleared rfl, rfl, fun off hlow hhigh => keyState_of_cleared rfl ?_⟩
  have hindex : (off.extractLsb' 2 10).toNat = wordIndex off := rfl
  omega

end Sys2Proof.Machine
end

section
/-! SUPPORT. The generate: its checks, its output, the seed handshake (42_drbg.md R210 to R221), with O43 to O48. -/

namespace Sys2Proof.Machine

/-! The checks, in the order of 60_exceptions.md R264. -/

theorem badGenLen_iff {n : Nat} {outv : Bool} : badGenLen n outv = true ↔ n > 65535 ∨ outv = false := by
  simp [badGenLen, Config.maxGenerate]

theorem badGenLen_eq_false {n : Nat} {outv : Bool} (hle : n ≤ 65535) (houtv : outv = true) :
    badGenLen n outv = false := by
  rw [← Bool.not_eq_true, badGenLen_iff]
  simp [houtv, hle]

theorem seedTrigger_iff {c : DrbgContext} :
    seedTrigger c = true ↔ c.seederPresent = true ∧ c.rc.toNat > c.ri.toNat := by
  rw [seedTrigger, Bool.and_eq_true, decide_eq_true_eq]

section Generate

variable {f : CmdFlags} {s : State} {g : Snapshot}

theorem exec_drbgGenerate_answered {seed : Bytes 48} (h : s.seq = .run g) (hseed : g.seedBytes = some seed) :
    exec (.drbgGenerate f) s = .next (resumeGenerate seed g.len.toNat s) :=
  (complete_of_run _ h).trans (congrArg _ (by simp only [hseed]))

theorem exec_drbgGenerate_uninit (h : s.seq = .run g) (hnone : g.seedBytes = none) (hstate : s.ctx.state = .uninit) :
    exec (.drbgGenerate f) s = .next (finish .notReady s) :=
  (complete_of_run _ h).trans (congrArg _ (by simp only [hnone, hstate]))

theorem exec_drbgGenerate_seeded (h : s.seq = .run g) (hnone : g.seedBytes = none)
    (hstate : s.ctx.state = .seeded) :
    exec (.drbgGenerate f) s = .next (if badGenLen g.len.toNat f.outv then finish .badLength s
      else if seedTrigger s.ctx then { s with seq := .waitSeed g }
      else generateBody g.len.toNat s.ctx.k s.ctx.v s.ctx.rc s) :=
  (complete_of_run _ h).trans (congrArg _ (by simp only [hnone, hstate]))

/-- A generate of a seeded context that passes the length check and does not trigger comes to its body. -/
theorem exec_drbgGenerate_untriggered (h : s.seq = .run g) (hnone : g.seedBytes = none)
    (hstate : s.ctx.state = .seeded) (hle : g.len.toNat ≤ 65535) (houtv : f.outv = true)
    (hquiet : ¬ (s.ctx.seederPresent = true ∧ s.ctx.rc.toNat > s.ctx.ri.toNat)) :
    exec (.drbgGenerate f) s = .next (generateBody g.len.toNat s.ctx.k s.ctx.v s.ctx.rc s) := by
  rw [exec_drbgGenerate_seeded h hnone hstate, badGenLen_eq_false hle houtv, if_neg Bool.false_ne_true,
    if_neg (mt seedTrigger_iff.mp hquiet)]

end Generate

theorem generateBody_exhausted {l : Nat} {k : Bytes 32} {v : Bytes 16} {rc : BitVec 64} (s : State)
    (h : rc.toNat > 2 ^ 48) : generateBody l k v rc s = { s with seq := .idle, err := .needReseed } := by
  rw [generateBody, if_pos (exhausted_iff.mpr h), finish_unmarked rfl]

theorem generateBody_generates {rc : BitVec 64} (l : Nat) (k : Bytes 32) (v : Bytes 16) (s : State)
    (h : rc.toNat ≤ 2 ^ 48) :
    let kv := drbgUpdate k (add128 v (nblocks l)) (zeroBytes 48)
    generateBody l k v rc s = { s with
      seq := .idle, err := .ok, out := keystream (keySchedule k) (inc128 v) l,
      ctx := { s.ctx with k := kv.1, v := kv.2, rc := rc + 1 } } := by
  have hfresh : ¬ exhausted rc = true := fun hx => absurd (exhausted_iff.mp hx) (by omega)
  exact (if_neg hfresh).trans (finish_ok _)

/-- BUSY and SEED_REQ under OVR (10_state.md R25). -/
theorem statusWord_low_bits (s : State) :
    (statusWord s).extractLsb' 0 2 = BitVec.ofBool (seedReq s) ++ BitVec.ofBool (busy s) ∧
    (statusWord s).extractLsb' 0 3 =
      (BitVec.ofBool s.ovr ++ BitVec.ofBool (seedReq s) ++ BitVec.ofBool (busy s) : BitVec 3) := by
  constructor <;>
    (apply BitVec.eq_of_getLsbD_eq
     intro i hi
     simp only [statusWord, BitVec.getLsbD_extractLsb', BitVec.getLsbD_append]
     interval_cases i <;> simp)

/-- A waiting block reads BUSY and SEED_REQ. -/
theorem status_of_waitSeed {s : State} {g : Snapshot} (h : s.seq = .waitSeed g) :
    (regReadValue 0x004 s).extractLsb' 0 2 = 3 := by
  rw [regReadValue_status s (by decide), (statusWord_low_bits s).1, seedReq_iff.mpr ⟨g, h⟩,
    busy_iff.mpr (by simp [h])]
  decide

/-- A running block that has rejected nothing reads BUSY alone. -/
theorem status_of_run {s : State} {g : Snapshot} (h : s.seq = .run g) (hovr : s.ovr = false) :
    (regReadValue 0x004 s).extractLsb' 0 3 = 1 := by
  rw [regReadValue_status s (by decide), (statusWord_low_bits s).2, hovr]
  simp only [seedReq, busy, h]
  decide

/-- Settles O44: each check by the equation of the generate at its place. -/
theorem generateChecksInOrder : Obligations.GenerateChecksInOrder := by
  refine fun f s g hrun hnone => ⟨exec_drbgGenerate_uninit hrun hnone, fun hstate hbad => ?_,
    fun hstate hle houtv hpresent habove => ⟨?_, status_of_waitSeed rfl⟩,
    fun hstate hle houtv hquiet hexhausted => ?_⟩
  · rw [exec_drbgGenerate_seeded hrun hnone hstate, if_pos (badGenLen_iff.mpr hbad), finish_unmarked rfl]
  · rw [exec_drbgGenerate_seeded hrun hnone hstate, badGenLen_eq_false hle houtv, if_neg Bool.false_ne_true,
      if_pos (seedTrigger_iff.mpr ⟨hpresent, habove⟩)]
  · rw [exec_drbgGenerate_untriggered hrun hnone hstate hle houtv hquiet, generateBody_exhausted s hexhausted]

/-! The output. -/

/-- Byte j of a generate lies in block j div 16, whose counter is V + 1 + j div 16. -/
theorem getElem?_keystream_inc128 (rk : Schedule) (v : Bytes 16) {l j : Nat} (h : j < l) :
    (keystream rk (inc128 v) l)[j]? = some (byteAt (aesEncrypt rk (add128 v (1 + j / 16))) (j % 16)) := by
  rw [keystream_eq_take rk _ (k := l) (by omega), List.getElem?_take_of_lt h, getElem?_blockStream rk _ (by omega),
    inc128_eq_add128, add128_add128]

/-- Settles O43: the checks pass, and the body's keystream starts from V + 1. -/
theorem drbgGenerateCompletes : Obligations.DrbgGenerateCompletes := by
  intro f s g hrun hnone hstate hle houtv hquiet hfresh
  refine ⟨keystream (keySchedule s.ctx.k) (inc128 s.ctx.v) g.len.toNat, s.ctx.rc + 1, ?_, by bv_omega,
    length_keystream _ _ _, fun j hj => getElem?_keystream_inc128 _ _ hj⟩
  rw [exec_drbgGenerate_untriggered hrun hnone hstate hle houtv hquiet, generateBody_generates _ _ _ s hfresh]

/-- Settles O47: addition to the counter is iterated increment, and block i of the keystream from V + 1 has the counter
V + 1 + i. -/
theorem generateLoopAdvancesThenEncrypts : Obligations.GenerateLoopAdvancesThenEncrypts := by
  refine fun rk v l => ⟨?_, add128_eq_iterate v _⟩
  simp only [keystream, ← add128_eq_iterate, inc128_eq_add128, add128_add128, Nat.add_comm 1]

/-- The output of a generate that succeeds, not an answered one, by K, V and LEN alone (42_drbg.md R218). -/
theorem out_of_exec_drbgGenerate {f : CmdFlags} {s t : State} {g : Snapshot} (hrun : s.seq = .run g)
    (hnone : g.seedBytes = none) (hexec : exec (.drbgGenerate f) s = .next t) (hidle : t.seq = .idle)
    (hok : t.err = .ok) : t.out = keystream (keySchedule s.ctx.k) (inc128 s.ctx.v) g.len.toNat := by
  cases hstate : s.ctx.state with
  | uninit =>
      rw [exec_drbgGenerate_uninit hrun hnone hstate] at hexec
      cases hexec
      cases hok
  | seeded =>
      rw [exec_drbgGenerate_seeded hrun hnone hstate] at hexec
      have ht := Host.Outcome.next.inj hexec
      split at ht
      · subst ht
        cases hok
      · split at ht
        · subst ht
          cases hidle
        · rcases generateBody_cases g.len.toNat s.ctx.k s.ctx.v s.ctx.rc s with ⟨-, hbody⟩ | ⟨-, k, v, hbody⟩ <;>
            rw [hbody] at ht <;> subst ht
          · cases hok
          · rfl

/-- Settles O48: both outputs are keystreams of one key and counter, of which the shorter is the start of the
longer. -/
theorem generateOutputDependsOnKeyCounterLength : Obligations.GenerateOutputDependsOnKeyCounterLength := by
  intro f f' s s' t t' g g' hrun hrun' hnone hnone' hk hv hexec hexec' hidle hidle' hok hok' hle
  rw [out_of_exec_drbgGenerate hrun hnone hexec hidle hok, out_of_exec_drbgGenerate hrun' hnone' hexec' hidle' hok',
    hk, hv]
  exact (keystreamSplitsAtWholeBlocks _ _ _ _ hle).1

/-! The seed handshake. -/

/-- Settles O45: in WAIT_SEED by the Accept of the response, in RUN by its completion. -/
theorem seedResponseReturnsTheGenerateToRun : Obligations.SeedResponseReturnsTheGenerateToRun := by
  refine fun f s g => ⟨fun hwait => ⟨acceptSeedResponse g s, ?_, rfl, status_of_run rfl rfl⟩, fun hrun => ?_⟩
  · simp only [exec, execDrbgSeedResponse, hwait]
  · simp only [exec, execDrbgSeedResponse, hrun]
    rfl

/-- A seed response written at the host's turn in WAIT_SEED is accepted. -/
theorem step_host_seedResponse {s : State} {g : Snapshot} {w : Word} {rest : List HostOp}
    (h : s.HostTurn (.write 0x008 w) rest) (hwait : s.seq = .waitSeed g) (hw : isSeedResponse w = true) :
    step s = .next (acceptSeedResponse g { tick s with script := rest }) := by
  rw [step_hostTurn h, hostStep, regWrite_cmd w _ (by decide)]
  exact congrArg _ ((presentCommand_waitSeed (s := { tick s with script := rest }) w hwait).trans (if_pos hw))

/-- The internal reseed sets RC to 1, so that the generate after it is never exhausted and leaves RC = 2. -/
theorem resumeGenerate_eq (seed : Bytes 48) (l : Nat) (s : State) :
    let kv := drbgUpdate s.ctx.k s.ctx.v seed
    let kv' := drbgUpdate kv.1 (add128 kv.2 (nblocks l)) (zeroBytes 48)
    resumeGenerate seed l s = { s with
      seq := .idle, err := .ok, out := keystream (keySchedule kv.1) (inc128 kv.2) l,
      ctx := { s.ctx with k := kv'.1, v := kv'.2, rc := 2 } } :=
  generateBody_generates l _ _ s (by decide)

/-- Settles O46: the host's step accepts the response, and the script used up gives the engine the next one, in which
the waiting generate goes on with the seed bytes. -/
theorem seedHandshakeReseedsThenGenerates : Obligations.SeedHandshakeReseedsThenGenerates := by
  intro s g w hinv hwait hopc hrsvd hscript
  obtain ⟨-, ⟨f, -, hd⟩, -, -, -⟩ := hinv.waitingGenerate g hwait
  have hturn : s.HostTurn (.write 0x008 w) [] := ⟨hscript, fun ⟨g', hg'⟩ => by simp [hwait] at hg'⟩
  have haccept := step_host_seedResponse hturn hwait (isSeedResponse_iff.mpr ⟨hopc, hrsvd⟩)
  have hcomplete := step_of_decode (acceptSeedResponse_seq g { tick s with script := [] }) ⟨⟨_, rfl⟩, .inl rfl⟩ hd
  dsimp only
  rw [run_succ_of_next 1 haccept, run_one, hcomplete, exec_drbgGenerate_answered rfl rfl, resumeGenerate_eq]
  rfl

end Sys2Proof.Machine
end

section
/-! SUPPORT. The ways the reseed counter changes (42_drbg.md R226), and O51. -/

namespace Sys2Proof.Machine

/-- What a command leaves in RC, if not the old count (42_drbg.md R226). -/
inductive CountEffect (i : Instr) (g : Snapshot) (rc : BitVec 64) : BitVec 64 → Prop where
  | kept : CountEffect i g rc rc
  | restarted (h : ∃ f, i = .drbgSeed f ∨ i = .drbgReseed f) : CountEffect i g rc 1
  | counted (h : ∃ f, i = .drbgGenerate f) (hnone : g.seedBytes = none) (hfresh : exhausted rc = false) :
      CountEffect i g rc (rc + 1)
  | answered (h : ∃ f, i = .drbgGenerate f) (hseed : g.seedBytes ≠ none) : CountEffect i g rc 2
  | cleared (h : ∃ f, i = .drbgDestroy f) : CountEffect i g rc 0

theorem toNat_succ_of_fresh {rc : BitVec 64} (h : exhausted rc = false) : (rc + 1).toNat = rc.toNat + 1 := by
  have hle : ¬ rc.toNat > 2 ^ 48 := fun hgt => by simp [exhausted_iff.mpr hgt] at h
  bv_omega

theorem CommandEffect.countEffect {i : Instr} {s t : State} {g : Snapshot} (h : CommandEffect i s g t) :
    CountEffect i g s.ctx.rc t.ctx.rc := by
  cases h with
  | failed | schedule | stream | increment | asked | configured => exact .kept
  | seeded c hcommand hc =>
      obtain ⟨f, hf⟩ := hcommand
      obtain ⟨-, hrc, -, -⟩ := hc
      rw [finish_ctx, hrc]
      exact .restarted ⟨f, .inl hf⟩
  | reseeded k v hcommand _ =>
      obtain ⟨f, hf⟩ := hcommand
      exact .restarted ⟨f, .inr hf⟩
  | generated out k v rc0 hcommand _ hfresh hcheck =>
      rcases hcheck with ⟨hnone, rfl, -, -⟩ | ⟨hseed, rfl⟩
      · exact .counted hcommand hnone hfresh
      · exact .answered hcommand hseed
  | destroyed hcommand => exact .cleared hcommand

/-- A move of the host changes RC by a reset alone, which clears it. -/
theorem HostEffect.rc_eq_or_reset {op : HostOp} {rest : List HostOp} {s t : State} (h : HostEffect op rest s t) :
    t.ctx.rc = s.ctx.rc ∨ (op = .reset ∧ t.ctx.rc = 0) := by
  by_cases hop : op = .reset
  · subst hop
    cases h with
    | read _ h | write _ _ h => cases h
    | pollAgain h | pollEnd h => rcases h with h | h <;> cases h
    | reset => exact .inr ⟨rfl, rfl⟩
  · obtain ⟨hctx, -⟩ := results_eq_iff.mp (h.results_eq hop)
    exact .inl (by rw [hctx])

/-- Settles O51, by who moves: the engine's step by what its command leaves in RC, the host's by a reset. -/
theorem reseedCounterChangesOnlyAsListed : Obligations.ReseedCounterChangesOnlyAsListed := by
  intro s s' _ hstep hchanged
  rcases step_next_cases hstep with ⟨-, g, hg, hengine⟩ | ⟨op, rest, hturn, heffect⟩ | ⟨-, -, rfl⟩
  · rcases hengine with ⟨i, hd, hexec⟩ | ⟨-, -, rfl⟩
    · refine .inl ⟨g, i, hg, hd, ?_⟩
      obtain ⟨t, ht, heffect⟩ := exec_run i (s := tick s) hg
      obtain rfl : t = s' := Host.Outcome.next.inj (ht.symm.trans hexec)
      have hcount : CountEffect i g s.ctx.rc t.ctx.rc := heffect.countEffect
      generalize t.ctx.rc = rc at hcount hchanged ⊢
      cases hcount with
      | kept => exact absurd rfl hchanged
      | restarted h => exact .inl ⟨h, rfl⟩
      | counted h hnone hfresh => exact .inr (.inl ⟨h, hnone, toNat_succ_of_fresh hfresh⟩)
      | answered h hseed => exact .inr (.inr (.inl ⟨h, hseed, rfl⟩))
      | cleared h => exact .inr (.inr (.inr ⟨h, rfl⟩))
    · exact absurd rfl hchanged
  · rcases heffect.rc_eq_or_reset with hkept | ⟨rfl, hzero⟩
    · exact absurd hkept hchanged
    · exact .inr ⟨rest, hturn.1, hzero⟩
  · exact absurd rfl hchanged

end Sys2Proof.Machine
end

section
/-! SUPPORT. Where the agents' moves and a step stop (60_exceptions.md R278, 20_memory.md R65), and O11. -/

namespace Sys2Proof.Machine

/-- A move of the host faults only in a WAITIDLE that can never end (log 4). -/
theorem hostStep_fault_iff {op : HostOp} {rest : List HostOp} {s : State} {f : Fault} :
    hostStep op rest s = .fault f ↔ f = .seedNeverAnswered ∧ op = .waitIdle ∧ ∃ g, s.seq = .waitSeed g := by
  rw [← seedReq_iff]
  cases op with
  | read | write | narrow | reset => simp [hostStep]
  | waitIdle =>
      simp only [hostStep]
      split
      · simp [*, eq_comm]
      · split <;> simp [*]
  | waitSeed =>
      simp only [hostStep]
      split <;> simp

/-- A move of the host is refused only at a narrow transfer (log 5). -/
theorem hostStep_refused_iff {op : HostOp} {rest : List HostOp} {s : State} {r : Refusal} :
    hostStep op rest s = .refused r ↔ r = .narrowTransfer ∧ ∃ size off, op = .narrow size off := by
  cases op with
  | read | write | reset => simp [hostStep]
  | narrow size off => simp [hostStep, eq_comm]
  | waitIdle =>
      simp only [hostStep]
      split
      · simp
      · split <;> simp
  | waitSeed =>
      simp only [hostStep]
      split <;> simp

theorem quietStep_fault_iff {s : State} {f : Fault} :
    quietStep s = .fault f ↔ f = .seedNeverAnswered ∧ ∃ g, s.seq = .waitSeed g := by
  rw [← seedReq_iff, quietStep]
  split <;> simp [*, eq_comm]

theorem quietStep_ne_refused (s : State) (r : Refusal) : quietStep s ≠ .refused r := by
  rw [quietStep]
  split <;> simp

/-- The engine's turn always ends in a next state: a word that decodes has a meaning in RUN, and one that does not
completes with ILLEGAL_CMD. -/
theorem step_next_of_engineTurn {s : State} (h : s.EngineTurn) : ∃ t, step s = .next t := by
  rw [step_engineTurn h]
  obtain ⟨g, hg⟩ := h.1
  rcases engineStep_run (s := tick s) hg with ⟨i, -, hexec⟩ | ⟨-, -, hillegal⟩
  · obtain ⟨t, ht, -⟩ := exec_run i (s := tick s) hg
    exact ⟨t, hexec.trans ht⟩
  · exact ⟨_, hillegal⟩

theorem not_hostTurn_of_engineTurn {s : State} {op : HostOp} {rest : List HostOp} (h : s.EngineTurn) :
    ¬ s.HostTurn op rest := fun hhost => by
  have hboth := (nextAgent_engine.mpr h).symm.trans (nextAgent_host.mpr ⟨op, rest, hhost⟩)
  cases hboth

/-- A step faults exactly where the engine is stuck in WAIT_SEED. -/
theorem step_fault_iff {s : State} {f : Fault} :
    step s = .fault f ↔ f = .seedNeverAnswered ∧ (∃ g, s.seq = .waitSeed g) ∧
      (s.script = [] ∨ ∃ rest, s.script = .waitIdle :: rest) := by
  rcases turn_cases s with hengine | ⟨op, rest, hhost⟩ | ⟨hscript, hseq⟩
  · obtain ⟨t, ht⟩ := step_next_of_engineTurn hengine
    obtain ⟨g, hg⟩ := hengine.1
    simp [ht, hg]
  · have hscript := hhost.1
    rw [step_hostTurn hhost, hostStep_fault_iff, tick_seq]
    simp [hscript, and_comm]
  · rw [step_quiet hscript hseq, quietStep_fault_iff]
    simp [hscript]

/-- A step is refused exactly at a narrow transfer at the host's turn. -/
theorem step_refused_iff {s : State} {r : Refusal} :
    step s = .refused r ↔ r = .narrowTransfer ∧ ∃ size off rest, s.HostTurn (.narrow size off) rest := by
  rcases turn_cases s with hengine | ⟨op, rest, hhost⟩ | ⟨hscript, hseq⟩
  · obtain ⟨t, ht⟩ := step_next_of_engineTurn hengine
    simp [ht, not_hostTurn_of_engineTurn hengine]
  · rw [step_hostTurn hhost, hostStep_refused_iff]
    refine and_congr_right fun _ => exists₂_congr fun size off => ⟨?_, ?_⟩
    · rintro rfl
      exact ⟨rest, hhost⟩
    · rintro ⟨rest', hscript, -⟩
      exact (List.cons.inj (hhost.1.symm.trans hscript)).1
  · rw [step_quiet hscript hseq]
    simp [quietStep_ne_refused, State.HostTurn, hscript]

/-- Settles O11: where a step faults and where it is refused, each by whose turn it is. -/
theorem stepStopsOnlyWhereTheSpecSays : Obligations.StepStopsOnlyWhereTheSpecSays :=
  fun _ => ⟨fun _ => step_fault_iff, fun _ => step_refused_iff⟩

end Sys2Proof.Machine
end

section
/-! SUPPORT. What a failed command leaves, and the marks every step keeps (60_exceptions.md R263, R278), with O52 and
O59. -/

namespace Sys2Proof.Machine

/-- A command that ended with a code other than OK was ended by `finish` alone: every other effect of a command
commits with OK, or waits. -/
theorem CommandEffect.eq_finish_of_failed {i : Instr} {s t : State} {g : Snapshot} (h : CommandEffect i s g t)
    (hidle : t.seq = .idle) (herr : t.err ≠ .ok) : t = finish t.err s := by
  cases h with
  | failed code _ => rfl
  | schedule | stream | increment | seeded | reseeded | generated | configured | destroyed => exact absurd rfl herr
  | asked => cases hidle

/-- Settles O52: in RUN by the command's effect; a seed response accepted in WAIT_SEED does not end in IDLE. -/
theorem failedCommandCommitsNothing : Obligations.FailedCommandCommitsNothing := by
  intro i s t hexec hidle herr
  rcases exec_next i hexec with ⟨g, -, heffect⟩ | ⟨f, g, -, -, rfl⟩
  · rw [heffect.eq_finish_of_failed hidle herr]
    rfl
  · cases hidle

/-- `finish` records the fault of its code after the marks there are. -/
theorem marks_prefix_finish (code : ResultCode) (s : State) : s.marks <+: (finish code s).marks :=
  List.prefix_append s.marks code.marks

/-- No command clears a mark. -/
theorem CommandEffect.marks_prefix {i : Instr} {s t : State} {g : Snapshot} (h : CommandEffect i s g t) :
    s.marks <+: t.marks := by
  cases h with
  | failed code _ => exact marks_prefix_finish code s
  | schedule | stream | increment | seeded | reseeded | generated | configured | destroyed =>
      exact marks_prefix_finish .ok _
  | asked => exact List.prefix_rfl

theorem marks_prefix_presentCommand (w : Word) (s : State) : s.marks <+: (presentCommand w s).marks := by
  rcases presentCommand_cases w s with ⟨-, heq⟩ | ⟨g, -, -, heq⟩ | ⟨-, heq⟩ <;> rw [heq]
  · exact List.prefix_rfl
  · exact List.prefix_rfl
  · exact List.prefix_append s.marks [.overrun]

theorem marks_prefix_regWrite (off : BitVec 32) (w : Word) (s : State) : s.marks <+: (regWrite off w s).marks := by
  have heffect := regWrite_effect off w s
  generalize regWrite off w s = t at heffect ⊢
  cases heffect with
  | presented => exact marks_prefix_presentCommand w s
  | ignored | len | adLen | riLo | riHi | keyIn | ctrIn | entIn | adIn => exact List.prefix_rfl

@[simp] theorem hostRead_marks (off : BitVec 32) (s : State) : (hostRead off s).marks = s.marks := by
  rcases regReadEffect_cases off s with h | h <;> simp [hostRead, h]

/-- No move of the host clears a mark, not even a reset (log 9). -/
theorem HostEffect.marks_prefix {op : HostOp} {rest : List HostOp} {s t : State} (h : HostEffect op rest s t) :
    s.marks <+: t.marks := by
  cases h with
  | read off _ => rw [hostRead_marks]
  | write off w _ => exact marks_prefix_regWrite off w { s with script := rest }
  | pollAgain | pollEnd | reset => exact List.prefix_rfl

/-- Settles O59, by who moves: the engine's step by the effect of its command, the host's by the effect of its
access. -/
theorem marksAreNeverCleared : Obligations.MarksAreNeverCleared := by
  intro s s' hstep
  rcases step_next_cases hstep with ⟨-, g, hg, hengine⟩ | ⟨op, rest, -, heffect⟩ | ⟨-, -, rfl⟩
  · rcases hengine with ⟨i, -, hexec⟩ | ⟨-, -, rfl⟩
    · obtain ⟨t, ht, heffect⟩ := exec_run i (s := tick s) hg
      obtain rfl : t = s' := Host.Outcome.next.inj (ht.symm.trans hexec)
      exact heffect.marks_prefix
    · exact marks_prefix_finish .illegalCmd (tick s)
  · exact heffect.marks_prefix
  · exact List.prefix_rfl

end Sys2Proof.Machine
end

section
/-! SUPPORT. The ways out of WAIT_SEED (60_exceptions.md R277, 42_drbg.md R220), and O57. -/

namespace Sys2Proof.Machine

/-- Only the host moves in WAIT_SEED. -/
theorem hostTurn_of_step_waitSeed {s t : State} {g : Snapshot} (hwait : s.seq = .waitSeed g)
    (hstep : step s = .next t) : ∃ op rest, s.HostTurn op rest ∧ HostEffect op rest (tick s) t := by
  rcases step_next_cases hstep with ⟨-, g', hrun, -⟩ | hhost | ⟨-, hidle, -⟩
  · simp [hwait] at hrun
  · exact hhost
  · simp [hwait] at hidle

/-- A host write in WAIT_SEED is the seed response that CMD takes, or the wait goes on. -/
theorem regWrite_waitSeed {s : State} {g : Snapshot} (off : BitVec 32) (w : Word) (hwait : s.seq = .waitSeed g) :
    (regWrite off w s).seq = .waitSeed g ∨
    (wordIndex off = 2 ∧ isSeedResponse w = true ∧ regWrite off w s = acceptSeedResponse g s) := by
  by_cases hoff : wordIndex off = 2
  · rw [regWrite_cmd w s hoff, presentCommand_waitSeed w hwait]
    by_cases hw : isSeedResponse w = true
    · exact .inr ⟨hoff, hw, if_pos hw⟩
    · exact .inl (by rw [if_neg hw, rejectCommand_seq, hwait])
  · rw [regWrite_eq_withOperands (s := s) w hoff rfl, withOperands_seq]
    exact .inl hwait

/-- What a move of the host does to SEQ and the context in WAIT_SEED. -/
theorem HostEffect.of_waitSeed {op : HostOp} {rest : List HostOp} {s t : State} {g : Snapshot}
    (h : HostEffect op rest s t) (hwait : s.seq = .waitSeed g) :
    (t.seq = .waitSeed g ∧ t.ctx = s.ctx) ∨
    (∃ off w, op = .write off w ∧ wordIndex off = 2 ∧ isSeedResponse w = true ∧
      t.seq = .run { g with seedBytes := some s.entIn } ∧ t.ctx = s.ctx) ∨
    (op = .reset ∧ t.seq = .idle) := by
  cases h with
  | read off _ =>
      obtain ⟨hseq, hres⟩ := hostRead_frame off { s with script := rest }
      exact .inl ⟨hseq.trans hwait, (results_eq_iff.mp hres).1⟩
  | write off w hop =>
      have hctx := (results_eq_iff.mp (results_regWrite off w { s with script := rest })).1
      rcases regWrite_waitSeed (s := { s with script := rest }) off w hwait with hkept | ⟨hoff, hw, haccept⟩
      · exact .inl ⟨hkept, hctx⟩
      · exact .inr (.inl ⟨off, w, hop, hoff, hw, congrArg State.seq haccept, hctx⟩)
  | pollAgain | pollEnd => exact .inl ⟨hwait, rfl⟩
  | reset hop => exact .inr (.inr ⟨hop, rfl⟩)

/-- Settles O57: only the host moves in WAIT_SEED, and of its moves only a seed response and a reset end the wait. -/
theorem seedWaitEndsOnlyByResponseOrReset : Obligations.SeedWaitEndsOnlyByResponseOrReset := by
  intro s s' g hwait hstep
  obtain ⟨op, rest, ⟨hscript, -⟩, heffect⟩ := hostTurn_of_step_waitSeed hwait hstep
  rcases heffect.of_waitSeed (s := tick s) hwait with hkept | ⟨off, w, rfl, hoff, hw, hafter⟩ | ⟨rfl, hidle⟩
  · exact .inl hkept
  · obtain ⟨hopc, hrsvd⟩ := isSeedResponse_iff.mp hw
    exact .inr (.inl ⟨⟨off, w, rest, hscript, (wordIndex_eq_toNat_iff 2).mp hoff, hopc, hrsvd⟩, hafter⟩)
  · exact .inr (.inr ⟨⟨rest, hscript⟩, hidle⟩)

end Sys2Proof.Machine
end

section
/-! SUPPORT. The platform's operations touch the block of one instance (60_exceptions.md R274), and O60. -/

namespace Sys2Proof.Machine

/-- A step of instance `k` leaves the platform, or replaces its block `k`. -/
theorem Platform.step_next {p p' : Platform} {k : Nat} (h : p.step k = .next p') :
    p' = p ∨ ∃ s, p' = ⟨p.blocks.set k s⟩ := by
  unfold Platform.step at h
  split at h
  · split at h <;> cases h
    exact .inr ⟨_, rfl⟩
  · cases h
    exact .inl rfl

/-- A bus write modifies the block of the instance that answers. -/
theorem Platform.busWrite_of_route {p : Platform} {addr k : Nat} {off : BitVec 32} (w : Word)
    (h : p.route addr = some (k, off)) : p.busWrite addr w = some ⟨p.blocks.modify k (regWrite off w)⟩ := by
  simp [Platform.busWrite, h]

/-- A bus read replaces the block of the instance that answers. -/
theorem Platform.busRead_of_route {p p' : Platform} {addr k : Nat} {off : BitVec 32} {v : Word}
    (h : p.route addr = some (k, off)) (hread : p.busRead addr = some (v, p')) :
    ∃ s, p' = ⟨p.blocks.set k s⟩ := by
  simp only [Platform.busRead, h] at hread
  split at hread <;> cases hread
  exact ⟨_, rfl⟩

/-- Settles O60: each operation replaces at most the block of its own instance. -/
theorem instancesShareNoState : Obligations.InstancesShareNoState := by
  intro p p' k j hne
  have hset : ∀ s, (p.blocks.set k s)[j]? = p.blocks[j]? := fun s => List.getElem?_set_ne hne.symm
  refine ⟨fun hstep => ?_, fun addr w off hroute hwrite => ?_, fun addr v off hroute hread => ?_⟩
  · rcases Platform.step_next hstep with rfl | ⟨s, rfl⟩
    · rfl
    · exact hset s
  · rw [Platform.busWrite_of_route w hroute] at hwrite
    cases hwrite
    exact List.getElem?_modify_ne _ p.blocks hne.symm
  · obtain ⟨s, rfl⟩ := Platform.busRead_of_route hroute hread
    exact hset s

end Sys2Proof.Machine
end

section
/-! SUPPORT. Reset (70_reset_and_hazards.md R290, R291), with O10 and O13, and the end of RUN (R298, R299), with
O58. -/

namespace Sys2Proof.Machine

/-- Settles O10: a hardware reset gives the invariant in every state, and leaves the reset state as it is. -/
theorem invariantAfterReset : Obligations.InvariantAfterReset := hardwareReset_inv State.reset

/-- Settles O13: the host's move is the hardware reset, on the ticked state with the rest of the script. -/
theorem hardwareResetFromAnyState : Obligations.HardwareResetFromAnyState :=
  fun _ _ hturn => step_hostTurn hturn

/-! The host's moves use up no entry of the schedule: `tick` alone does. -/

@[simp] theorem regWrite_schedule (off : BitVec 32) (w : Word) (s : State) :
    (regWrite off w s).schedule = s.schedule := by
  by_cases hoff : wordIndex off = 2
  · rw [regWrite_cmd w s hoff]
    rcases presentCommand_cases w s with ⟨-, heq⟩ | ⟨g, -, -, heq⟩ | ⟨-, heq⟩ <;> rw [heq] <;> rfl
  · rw [regWrite_eq_withOperands (s := s) w hoff rfl]
    rfl

@[simp] theorem hostRead_schedule (off : BitVec 32) (s : State) : (hostRead off s).schedule = s.schedule := by
  rcases regReadEffect_cases off s with h | h <;> simp [hostRead, h]

theorem HostEffect.schedule_eq {op : HostOp} {rest : List HostOp} {s t : State} (h : HostEffect op rest s t) :
    t.schedule = s.schedule := by
  cases h with
  | read off _ => exact hostRead_schedule off _
  | write off w _ => exact regWrite_schedule off w _
  | pollAgain | pollEnd | reset => rfl

/-! The engine's step ends RUN. -/

/-- A command ends in IDLE or, asking for a seed, in WAIT_SEED. -/
theorem CommandEffect.seq_ne_run {i : Instr} {s t : State} {g : Snapshot} (h : CommandEffect i s g t)
    (g' : Snapshot) : t.seq ≠ .run g' := by
  cases h <;> exact nofun

theorem step_leaves_run {s : State} (hturn : s.EngineTurn) : ∃ t, step s = .next t ∧ ∀ g, t.seq ≠ .run g := by
  rw [step_engineTurn hturn]
  obtain ⟨g, hrun⟩ := hturn.1
  rcases engineStep_run (s := tick s) hrun with ⟨i, -, hexec⟩ | ⟨-, -, hillegal⟩
  · obtain ⟨t, ht, heffect⟩ := exec_run i (s := tick s) hrun
    exact ⟨t, hexec.trans ht, heffect.seq_ne_run⟩
  · exact ⟨_, hillegal, fun _ => nofun⟩

/-- A step in RUN ends it, stops at a narrow transfer, or is a move of the host that uses up an entry of the
schedule. -/
theorem step_run_cases {s : State} {g : Snapshot} (hrun : s.seq = .run g) :
    (∃ t, step s = .next t ∧ t.seq ≠ .run g) ∨ step s = .refused .narrowTransfer ∨
    (∃ t, step s = .next t ∧ t.seq = .run g ∧ s.schedule = .host :: t.schedule) := by
  rcases turn_cases s with hengine | ⟨op, rest, hhost⟩ | ⟨-, hnorun⟩
  · obtain ⟨t, ht, hleft⟩ := step_leaves_run hengine
    exact .inl ⟨t, ht, hleft g⟩
  · cases hstep : step s with
    | refused r =>
        obtain ⟨rfl, -⟩ := step_refused_iff.mp hstep
        exact .inr (.inl rfl)
    | fault f =>
        obtain ⟨-, ⟨g', hwait⟩, -⟩ := step_fault_iff.mp hstep
        simp [hrun] at hwait
    | next t =>
        by_cases hseq : t.seq = .run g
        · have htail : t.schedule = s.schedule.tail := (hostStep_next (step_hostTurn hhost ▸ hstep)).schedule_eq
          have hhead : s.schedule.head? = some .host := hhost.2 ⟨g, hrun⟩
          exact .inr (.inr ⟨t, rfl, hseq, htail ▸ List.eq_cons_of_mem_head? hhead⟩)
        · exact .inl ⟨t, rfl, hseq⟩
  · exact absurd hrun (hnorun g)

/-- Settles O58, by induction on the schedule: a step that does not end RUN uses up one of its entries, and with none
left the engine moves. -/
theorem runningCommandLeavesRun : Obligations.RunningCommandLeavesRun := by
  intro s g hrun
  induction hschedule : s.schedule generalizing s with
  | nil =>
      obtain ⟨t, ht, hleft⟩ := step_leaves_run ⟨⟨g, hrun⟩, .inr (by simp [hschedule])⟩
      exact ⟨1, by simp, .inl ⟨t, run_one s ▸ ht, hleft g⟩⟩
  | cons a rest ih =>
      rcases step_run_cases hrun with hleft | hnarrow | ⟨t, ht, hseq, hused⟩
      · exact ⟨1, by simp, .inl (run_one s ▸ hleft)⟩
      · exact ⟨1, by simp, .inr (run_one s ▸ hnarrow)⟩
      · obtain ⟨-, hrest⟩ := List.cons.inj (hschedule.symm.trans hused)
        obtain ⟨n, hn, hend⟩ := ih t hseq hrest.symm
        exact ⟨n + 1, by simpa using hn, by rwa [run_succ_of_next n ht]⟩

end Sys2Proof.Machine
end
